-- ==== Sys2Proof/Word.lean ====
section
/-! DEFINITION. The word types of the Askolo model and the sparse maps that hold its large tables. -/

namespace Sys2Proof

/-- A byte of a store, a message or a dictionary value. -/
abbrev Byte := BitVec 8

/-- A register word (R14). -/
abbrev W64 := BitVec 64

/-- A byte string, lowest address first. -/
abbrev Bytes := List (BitVec 8)

/-- A table indexed by a number, held as the list of its entries that differ from the table's
default, in strictly rising key order. -/
abbrev SMap (α : Type) := List (Nat × α)

/-- The bytes of one store: `Host.Cell`s in the canonical form of `SMap` with default 0. -/
abbrev Mem := List Host.Cell

end Sys2Proof
end

