-- ==== Sys2Proof/Syntax.lean ====
section
/-! DEFINITION. The commands of the block: one constructor per row of the spec's table of operations and events, with the
operands each carries. What the die is not (package memory, partners, sensors, the passing of time) reaches it as an
operand: a fetched line, a measured current, an elapsed time. -/

namespace Sys2Proof

/-- A lane row of a core (R108). -/
inductive Row where
  | a | b
  deriving DecidableEq, Repr

/-- Who makes a register or dictionary request (R474, R478, R481, R517): the I3C controller, a Torec MGT message (landing
it arrived on, source position, source partition and tag), the test access port, or the firmware of the MP. -/
inductive Requester where
  | i3c
  | torec (land : Fin 8) (src : BitVec 6) (part : BitVec 4) (tag : BitVec 12)
  | tap
  | fw
  deriving DecidableEq, Repr

/-- A Torec message header (R379). -/
structure Header where
  cls : BitVec 4
  opc : BitVec 4
  src : BitVec 6
  dst : BitVec 6
  part : BitVec 4
  gen : BitVec 16
  key : BitVec 16
  len : BitVec 5
  poi : Bool
  tag : BitVec 12
  flg : Bool
  addr : BitVec 52
  deriving DecidableEq, Repr

/-- The class of a remote write (R206). -/
inductive WClass where
  | chain | ferry | land
  deriving DecidableEq, Repr

/-- A remote write as it reaches a cluster store (R209). -/
structure RemoteWrite where
  cluster : Nat
  handle : Nat
  off : Nat
  data : Bytes
  cls : WClass
  src : BitVec 6
  part : Nat
  gen : BitVec 16
  deriving DecidableEq, Repr

/-- A ferry write as it reaches a landing buffer (R233, R234). -/
structure LbufWrite where
  cluster : Nat
  gate : Fin 2
  data : Bytes
  part : Nat
  gen : BitVec 16
  deriving DecidableEq, Repr

/-- A transient error in a lane: the accumulator of the cell the accumulate names takes `delta` beside its products (R86). -/
structure Upset where
  core : Fin 64
  lane : Fin 8
  delta : Int
  deriving DecidableEq, Repr

/-- A physical upset in one ccy: bits of an ECC word of a store (R188), or of a word at a router input (R229). -/
inductive Flip where
  | store (cluster : Nat) (store : Fin 5) (word : Nat) (double : Bool)
  | link (cluster : Nat) (port : Fin 5) (bit : Fin 512)
  deriving DecidableEq, Repr

/-- One sample of the strap pins (R500): position, orientation, helm candidate. -/
structure Straps where
  pos : BitVec 6
  orient : Bool
  hcand : Bool
  deriving DecidableEq, Repr

/-- A defect record of R437, or a defect TEST finds. -/
structure DefectRec where
  kind : Byte
  px : Byte
  py : Byte
  site : Byte
  row : Byte
  lane : Byte
  src : Byte
  deriving DecidableEq, Repr

/-- The sensors the MP reads in one sample (R470), each with the value it measures. -/
inductive Telemetry where
  | thermal (t : List Int)
  | rails (mvAndI2 : List (Nat × Nat))
  | droop (mv : List Nat)
  | eye (muiAndLane : List (Nat × Nat))
  | process (mhz : List Nat)
  deriving DecidableEq, Repr

/-- What a read of package memory brought back (R303, R328, R337). -/
inductive Fetched where
  | bytes (b : Bytes)
  | chartFault (code level : Byte) (addr entry : W64)
  | memErr
  deriving DecidableEq, Repr

/-- One level of a chart walk as read from package memory (R332). -/
inductive Fetched64 where
  | entry (w : BitVec 64)
  | memErr
  deriving DecidableEq, Repr

/-- What the front end reads while it checks a manifest (R288-R294): its berth, window, descriptor and stream lists, its
program image, and the stream table entries of its streams, in the order of the list. -/
structure CheckFetch where
  blist : Fetched
  wlist : Fetched
  dlist : Fetched
  slist : Fetched
  image : Fetched
  streams : List Bytes
  deriving DecidableEq, Repr

/-- The end of a ferry piece at its target (R321, R329). -/
inductive PieceResponse where
  | data (off : Nat) (b : Bytes)
  | done (off : Nat)
  | poison (off : Nat)
  | memErr (off : Nat)
  deriving DecidableEq, Repr

/-- A TOLL REPORT (R424). -/
structure TollReport where
  tide : BitVec 64
  guse : BitVec 32
  demand : BitVec 32
  energy : BitVec 32
  stall : BitVec 32
  bub : BitVec 32
  flags : Byte
  deriving DecidableEq, Repr

/-- How the training of a landing ended (R372-R376, R389): the modules that trained, those at x32, the rate code, the
lanes found failed, the partner module that faces each module (R377), whether the partner offers CXL.mem, whether it
requires CXL.io, whether the landing trained in loopback, and whether every condition of the link itself held. -/
structure Training where
  ok : Bool
  act : BitVec 4
  half : BitVec 4
  upper : BitVec 4
  rate : BitVec 2
  cxl : Bool
  io : Bool
  loopback : Bool
  failed : List (Nat × Nat)
  pmod : List (Fin 4)
  deriving DecidableEq, Repr

/-- A frame of a landing in fixed-latency mode (R390, R391): the 64-byte positions, the trailer bits 79:0 and FCHK. -/
structure Frame where
  pos : List Bytes
  trailer : BitVec 80
  fchk : BitVec 16
  deriving DecidableEq, Repr

/-- What a fault path reports (R441). -/
inductive FaultReport where
  | lane (c : Nat) (core : Fin 64) (row : Row) (phys : Fin 9)
  | fma (c : Nat) (core : Fin 64) (row : Row)
  | post (c : Nat) (core : Fin 64)
  | store (c : Nat) (store : Fin 5) (line : Nat)
  | table (c : Nat) (part : Fin 16)
  | sailTable (c : Nat)
  | router (c : Nat)
  | link (c : Nat) (port : Fin 5)
  | tally (part : Fin 16)
  deriving DecidableEq, Repr

/-- What the power controller measures in one control step (R410-R419): the energy of the step by rail in µJ; the currents by
rail (mean over 2 µs and over 20 µs, in 100 mA) and the voltage in mV; the activity estimate and the bank accesses of the
clusters that had any; the bytes that ferry pieces and messages moved on each landing, and that ferry pieces moved, by
partition (a further row holds what no partition moved); and by partition the held ccy of the step and the power drawn in
them, in mW. -/
structure PowerMeas where
  railEnergy : List Nat
  i2 : List Nat
  i20 : List Nat
  mv : List Nat
  act : List (Nat × Nat)
  banks : List (Nat × Nat)
  landBytes : List (List Nat)
  ferryBytes : List Nat
  held : List (Nat × Nat)
  deriving DecidableEq, Repr

/-- The errors of one lane in a loop test (R525): landing, module, lane, its kind (0 data, 1 redundant, 2 valid, 3 track,
4 clock or sideband) and their number. -/
structure LoopErr where
  land : Fin 8
  m : Fin 4
  lane : Nat
  kind : Fin 5
  n : Nat
  deriving DecidableEq, Repr

/-- The commands, one for each row of the table of operations and events: those with operands first, those without last. -/
inductive Instr where
  /-- R507: RST_N rises, releasing reset when PWRGD is high, clearing a latched trip and sampling the position straps. -/
  | rstNRise (pos : BitVec 6) (hot : Option (Fin 64))
  /-- R516: TAP instruction that selects the 1-bit bypass register. -/
  | bypass (tdi : Bool)
  /-- R516: TAP instruction that samples or preloads the boundary register. -/
  | samplePreload (pins tdi : BitVec 12)
  /-- R516: TAP instruction that drives the covered pins from the boundary register. -/
  | extest (pins tdi : BitVec 12)
  /-- R516: TAP instruction that holds outputs from the boundary register and selects bypass. -/
  | clamp (tdi : Bool)
  /-- R516: TAP instruction that puts every covered output except TDO in high impedance. -/
  | highz (tdi : Bool)
  /-- R523: TAP instruction that enters stand-alone test mode while DONEMASK is 0; the mode lasts until power-on. -/
  | satest (tdi : Bool)
  /-- R518: TAP instruction that reads one store line of a cluster outside every partition through the test port. -/
  | scanrd (tdi : BitVec 288)
  /-- R517: TAP instruction whose Update-DR starts a register-window access; the outcome is captured at the next Capture-DR. -/
  | dbgreg (tdi : BitVec 128)
  /-- R482: I3C CCC that assigns the target its dynamic address. -/
  | entdaa (addr : BitVec 7)
  /-- R482: I3C CCC that sets the maximum write length. -/
  | setmwl (len : BitVec 16)
  /-- R482: I3C CCC that sets the maximum read length. -/
  | setmrl (len : BitVec 16)
  /-- R482: I3C CCC that is accepted and has no effect. -/
  | enec (ev : Byte)
  /-- R482: I3C CCC that is accepted and has no effect. -/
  | disec (ev : Byte)
  /-- R482: I3C CCC that is accepted with defining byte 0x00 or 0x01 only. -/
  | rstact (defining : Byte)
  /-- R482: Any other I3C CCC is NACKed. -/
  | i3cOtherCcc (code : Byte)
  /-- R482: An I3C private write carries one MGT request and discards any unread response; a write with a parity error is discarded. -/
  | i3cPrivateWrite (data : Bytes) (parityError : Bool) (queued : Nat)
  /-- R479: MGT request that the register bridge serves by reading register words in ascending address. -/
  | rreg (q : Requester) (addr len : Nat)
  /-- R479: MGT request that the register bridge serves by writing register words, each under R15 and R527. -/
  | wreg (q : Requester) (addr : Nat) (data : Bytes)
  /-- R479: MGT request that reads a dictionary value from OFFSET, in segments with MORE. -/
  | odrd (q : Requester) (index : BitVec 16) (sub : Byte) (off len queued : Nat)
  /-- R476: MGT request that writes a dictionary entry; rights, type, seal and staging are checked. -/
  | odwr (q : Requester) (index : BitVec 16) (sub : Byte) (first last : Bool) (off : Nat) (data : Bytes) (queued : Nat)
  /-- R473: MGT request that returns the 16-byte descriptor of an entry. -/
  | oddesc (q : Requester) (index : BitVec 16) (sub : Byte) (queued : Nat)
  /-- R479: An MGT request with an unknown OP is answered FORMAT. -/
  | mgtFormatError (q : Requester) (block : Bytes)
  /-- R477: Staging of a segmented write that receives no segment for 1 s is discarded and event 0x0909 is posted. -/
  | stagingTimeout (index : BitVec 16) (sub : Byte)
  /-- R434: Bring-up step 1: the boot ROM reads and checks the fuses and the always-on rail. -/
  | stepProbe (fuseOk romOk : Bool)
  /-- R501: Bring-up step 3: the straps are sampled four times 250 µs apart and the orientation remap is applied. -/
  | stepStraps (samples : List Straps)
  /-- R434: Bring-up step 6: memory and logic BIST run, defects are appended and the maps are rebuilt. -/
  | stepTest (engineOk : Bool) (defects : List DefectRec)
  /-- R434: Bring-up step 7: every store, shadow, tally and table is zeroed. -/
  | stepZero (engineOk : Bool)
  /-- R431: A bring-up step's work completes and STATUS becomes DONE or FAILED. -/
  | stepDone (elapsedUs : Nat)
  /-- R454: A write of CLAIM on a helm candidate broadcasts SYN CLAIM and applies the claim to the die itself. -/
  | claim (q : Requester) (term : BitVec 32)
  /-- R354: The last cluster of a dissolved partition is clear; RESULT becomes 0x00 and event 0x0105 is posted. -/
  | dissolveComplete (p : Fin 16)
  /-- R358: The front end claims a free rectangle for a privileged partition that waits in CHECK, when clusters return to the pool. -/
  | privilegedClaim (p : Fin 16)
  /-- R359: HOLDT runs out for a privileged partition with no pending manifest; its berths are released and its clusters leave it. -/
  | holdtExpiry (p : Fin 16)
  /-- R486: A write of DUMPREQ makes firmware take a diagnostic dump without stopping or resetting anything. -/
  | dumpreq (q : Requester) (v : Byte) (timeUs : Nat)
  /-- R490: A write of IMGA or IMGB loads a firmware image into the inactive slot. -/
  | imageWrite (q : Requester) (slot : Fin 2) (image : Bytes)
  /-- R490: A write of ACTIVATE verifies the slot's image and makes a swap pending. -/
  | activate (q : Requester) (slot : Byte)
  /-- R490: At the first tide with no recovery or retrain pending, the MP saves handover state in RECON and starts the new slot. -/
  | firmwareSwap (kicked : Bool)
  /-- R489: A write of COMMIT raises the fused SVNMIN irreversibly, or is answered INVALID. -/
  | commit (q : Requester) (svn : BitVec 32)
  /-- R492: A write of NONCE starts an attestation report and discards any report still pending. -/
  | nonce (q : Requester) (data : Bytes)
  /-- R469: The MP watchdog expires after 100 ms without a kick; the MP restarts from the active slot. -/
  | watchdogExpiry (third : Bool) (timeUs : Nat)
  /-- R467: A 1 ms load window ends; the MP starts or ends shedding by LOAD. -/
  | loadWindowEnd (load : Nat) (duty : List Nat)
  /-- R470: Every TSAMP the MP samples the sensors and publishes their readings. -/
  | telemetrySample (r : Telemetry)
  /-- R486: An uncorrectable MP memory error, a fault-unit or security-block parity error, or a third watchdog expiry stops every partition, writes the dump and halts the MP. -/
  | fatalError (cause : Fin 4) (timeUs : Nat)
  /-- R239: Each ccy every requester examines the work of ccy w + 12 and raises hold requests with their causes. -/
  | holdExamine (p : Fin 16)
  /-- R238: The hold-tree root forms the partition's decision and sends it down, and on fixed-latency landings for a through-sailing partition. -/
  | holdDecision (p : Fin 16)
  /-- R31: A held ccy in which no stroke issues, no sailing advances and the static domain keeps its state; the hold counters advance. -/
  | heldCycle (p : Fin 16) (ccy : BitVec 32)
  /-- R149: The pilot decodes each stroke 16 schedule cycles before it issues and completes its checks. -/
  | strokeDecode (c : Nat)
  /-- R153: The tally field of a compute stroke adds or subtracts 2^TAMT in the cycle of issue when TPR is true. -/
  | strokeTallyChange (c : Nat)
  /-- R119: A lane-form operation whose products pass the pipeline and enter the named cell or block accumulator at t + 4. -/
  | accumulate (c : Nat) (row : Row) (upsets : List Upset)
  /-- R98: A lane-form operation that reads a cell at t + 4, rounds it once and writes the target berth at t + 9, or t + 11 to MX. -/
  | drain (c : Nat) (row : Row)
  /-- R122: A lane-form operation that drains a cell and accumulates into a cell in the same stroke. -/
  | accumulateAndDrain (c : Nat) (row : Row) (upsets : List Upset)
  /-- R129: Row operation in which each enabled FMA unit computes an FP32 a × b + c into a slot at t + 4. -/
  | fp32Fma (c : Nat) (row : Row)
  /-- R129: Row operation in which the paired FMA units compute an FP64 fma into a slot at t + 6. -/
  | fp64Fma (c : Nat) (row : Row)
  /-- R159: Row operation that loads an FMA slot through an A walk. -/
  | slotLoad (c : Nat) (row : Row)
  /-- R159: Row operation that stores an FMA slot through a drain walk. -/
  | slotStore (c : Nat) (row : Row)
  /-- R102: Cell-transfer operation that writes each lane's 24-byte cell image to a P-store berth at t + 6. -/
  | spill (c : Nat) (row : Row)
  /-- R102: Cell-transfer operation that reads cell images at t and replaces the cells at t + 4. -/
  | fill (c : Nat) (row : Row)
  /-- R161: Post operation that converts 16 elements between format codes. -/
  | convert (c : Nat)
  /-- R73: Post operation that encodes 32 values into one MX block with its scale. -/
  | mxEncode (c : Nat)
  /-- R132: Post operation that adds in FP32 or FP64 with one rounding. -/
  | add (c : Nat)
  /-- R132: Post operation that subtracts in FP32 or FP64 with one rounding. -/
  | subtract (c : Nat)
  /-- R132: Post operation that multiplies in FP32 or FP64 with one rounding. -/
  | multiply (c : Nat)
  /-- R132: Post operation that computes a fused multiply-add with source 3 in the result format. -/
  | fma (c : Nat)
  /-- R76: Post comparison EQ writing one byte per element. -/
  | compareEq (c : Nat)
  /-- R76: Post comparison NE writing one byte per element. -/
  | compareNe (c : Nat)
  /-- R76: Post comparison LT writing one byte per element. -/
  | compareLt (c : Nat)
  /-- R76: Post comparison LE writing one byte per element. -/
  | compareLe (c : Nat)
  /-- R76: Post comparison GT writing one byte per element. -/
  | compareGt (c : Nat)
  /-- R76: Post comparison GE writing one byte per element. -/
  | compareGe (c : Nat)
  /-- R76: Post comparison UNORD writing one byte per element. -/
  | compareUnord (c : Nat)
  /-- R77: Post selection minimum, returning NaN if either operand is NaN. -/
  | minimum (c : Nat)
  /-- R77: Post selection maximum, returning NaN if either operand is NaN. -/
  | maximum (c : Nat)
  /-- R77: Post selection minimumNumber, returning the non-NaN operand. -/
  | minimumNumber (c : Nat)
  /-- R77: Post selection maximumNumber, returning the non-NaN operand. -/
  | maximumNumber (c : Nat)
  /-- R106: Post operation that divides, correctly rounded. -/
  | divide (c : Nat)
  /-- R106: Post operation that takes the square root, correctly rounded. -/
  | sqrt (c : Nat)
  /-- R106: Post operation that computes the exponential. -/
  | exp (c : Nat)
  /-- R106: Post operation that computes the logarithm. -/
  | log (c : Nat)
  /-- R134: Post operation that returns maximum(x, +0). -/
  | relu (c : Nat)
  /-- R134: Post operation that computes GELU in FP32 within 2 ulp. -/
  | gelu (c : Nat)
  /-- R134: Post operation that computes SiLU in FP32 within 2 ulp. -/
  | silu (c : Nat)
  /-- R134: Post operation that computes the sigmoid in FP32 within 2 ulp. -/
  | sigmoid (c : Nat)
  /-- R134: Post operation that computes tanh in FP32 within 2 ulp. -/
  | tanh (c : Nat)
  /-- R133: Post operation that sums 16 values in a fixed FP32 tree and rounds the last addition into PT. -/
  | reduceSum (c : Nat)
  /-- R133: Post operation that selects the maximum of 16 values. -/
  | reduceMax (c : Nat)
  /-- R133: Post operation that selects the minimum of 16 values. -/
  | reduceMin (c : Nat)
  /-- R135: Post operation that writes the core's flag word to a berth and clears the bits it wrote as 1. -/
  | flagCapture (c : Nat)
  /-- R162: Control stroke that does nothing for one schedule cycle. -/
  | nop (c : Nat)
  /-- R162: Control stroke that does nothing for N + 1 schedule cycles. -/
  | idle (c : Nat)
  /-- R163: Control stroke that opens a loop level over the next LEN + 1 strokes for CNT + 1 iterations. -/
  | loop (c : Nat)
  /-- R162: Control stroke that loads mask register MREG. -/
  | setmask (c : Nat)
  /-- R171: Control stroke that loads a walk from a 64-byte image and zeroes its position. -/
  | ldwalk (c : Nat)
  /-- R162: Control stroke that sets the position of the selected walks to zero. -/
  | rstwalk (c : Nat)
  /-- R179: Control stroke that loads all base registers of all cores from a 4,096-byte table. -/
  | ldbase (c : Nat)
  /-- R162: Control stroke that adds an immediate to the OFF field of a base register of the masked cores. -/
  | addbase (c : Nat)
  /-- R162: Control stroke that binds a tally binding to a tally and direction. -/
  | tbind (c : Nat)
  /-- R165: Control stroke that holds the partition as missed sailings until a tally reaches N. -/
  | tidewait (c : Nat)
  /-- R166: Control stroke that arrives at the next tide and holds the partition until release. -/
  | tide (c : Nat)
  /-- R167: Control stroke that asks the front end to append a manifest image to the partition's self ring. -/
  | selfenq (c : Nat)
  /-- R168: Control stroke that ends the current leg, records replay state, sets leg-locks, clears the dirty map and commits tally increments. -/
  | leg (c : Nat)
  /-- R169: Control stroke that is the pilot's last of the voyage. -/
  | endStroke (c : Nat)
  /-- R180: A leg passes LMAX schedule cycles, which is a stroke fault of code LEG. -/
  | legLimitOverrun (p : Fin 16)
  /-- R175: The fetch sequencer reads a W-store line in an idle bank cycle for pending B-slice fetches. -/
  | bFetch (c : Nat) (bank : Fin 16)
  /-- R175: A B slice is in its feeder buffer 4 ccy after its last line is read. -/
  | bSliceArrival (c : Nat)
  /-- R223: Each ccy that the partition does not hold, a router uses its next sailing entry to route, launch and catch. -/
  | sailing (p : Fin 16) (flips : List Flip)
  /-- R234: A ferry write reaches a landing buffer, and is either taken or dropped as BSTALE. -/
  | landingBufferWrite (w : LbufWrite)
  /-- R210: A ferry or landing write reaching a cluster store is judged by the checks in order and lands or drops. -/
  | remoteWrite (w : RemoteWrite)
  /-- R198: The zero engine clears pending granules whose banks are idle, each ccy. -/
  | zeroEngineClear (c : Nat) (store : Fin 4) (busy : List Nat)
  /-- R195: A zeroing range is fully cleared and the berth becomes FREE, or the cluster returns to the pool. -/
  | zeroingComplete (c : Nat)
  /-- R191: Every INTV ccy the scrubber reads one line of each store in an idle bank cycle. -/
  | scrub (c : Nat)
  /-- R189: A corrected line is written back in an idle bank cycle. -/
  | correctedLineWriteback (c : Nat)
  /-- R208: A write that sets OPEN of CLU_GWCFG_g opens a window or is refused. -/
  | windowOpen (q : Requester) (c : Nat) (g : Fin 32) (v : W64)
  /-- R208: A write that clears OPEN closes the window and sets the other fields. -/
  | windowClose (q : Requester) (c : Nat) (g : Fin 32) (v : W64)
  /-- R211: A write to CLU_GWCRD_g sets CRINIT, CRD and ACPT, losing a coinciding decrement. -/
  | gwcrdWrite (q : Requester) (c : Nat) (g : Fin 32) (v : W64)
  /-- R211: A write to CLU_GWADD_g adds credits to CRD, saturating. -/
  | gwaddWrite (q : Requester) (c : Nat) (g : Fin 32) (v : W64)
  /-- R141: A write to CLU_LMAP_n takes effect only while the cluster is fenced or outside every partition. -/
  | lmapWrite (q : Requester) (c : Nat) (n : Fin 64) (v : W64)
  /-- R180: A write of LUS recomputes LMAX while the cluster is outside every partition, and is refused busy otherwise. -/
  | legmaxLusWrite (q : Requester) (c : Nat) (v : W64)
  /-- R259: A write to TDE_TAL_t sets VALUE only when the owner has no voyage, and clears the written W1C flags in every case. -/
  | tallyValueWrite (q : Requester) (t : Fin 16384) (v : W64)
  /-- R385: The home sends SNPI for a COH line; the front end answers with SNPR and rereads a doorbell with RDS. -/
  | cohSnpi (line : Fin 256)
  /-- R385: COH line data arrives; for a doorbell the front end reads TAIL or ACK and checks the ring for error. -/
  | cohData (line : Fin 256) (owned : Bool) (data : Bytes)
  /-- R385: The home completes a WBI. -/
  | cohCmp (line : Fin 256)
  /-- R286: A partition ready for its next manifest fetches it from the highest-priority enabled ring with one pending. -/
  | manifestFetch (p : Fin 16) (data : Fetched)
  /-- R294: A fetched manifest is checked in order and ends with a STATUS on the first failure. -/
  | manifestCheck (p : Fin 16) (f : CheckFetch)
  /-- R195: Every load descriptor of a berth has completed; the berth becomes RESIDENT and its IMGID is recorded. -/
  | berthLoadComplete (c : Nat) (h : Fin 128)
  /-- R298: Berths are resident, windows open, the program loaded and PRE descriptors done; the partition becomes READY, or a non-voyage manifest closes. -/
  | loadComplete (p : Fin 16)
  /-- R299: A READY partition starts through the hold tree outside the tide span, with the SR seed loaded into every pilot. -/
  | voyageStart (p : Fin 16)
  /-- R25: All pilots have issued END, drains are done and ferry writes acknowledged; stream entries update and the completion record is written. -/
  | voyageComplete (p : Fin 16)
  /-- R305: The completion record write is acknowledged; DONE is written and handles without KEEP are released. -/
  | recordDelivered (p : Fin 16)
  /-- R301: The front end copies a self-enqueued manifest image into the self ring and advances STAIL, or refuses it. -/
  | selfenqCopy (p : Fin 16)
  /-- R367: The front end closes a gather batch when enough eligible streams are queued or a priority wait expires, and binds the streams. -/
  | batchClose (p : Fin 16) (waited : List Nat)
  /-- R313: Partition command RESET stops the partition, raises its generation, drains the ferry engines and resets its tallies, buffers, windows, berths and streams. -/
  | pcmdReset (q : Requester) (p : Fin 16)
  /-- R300: Partition command ABORT stops the running voyage with STATUS 0x14, or closes it unstarted. -/
  | pcmdAbort (q : Requester) (p : Fin 16)
  /-- R300: Partition command HALT stops fetching after the current manifest. -/
  | pcmdHalt (q : Requester) (p : Fin 16)
  /-- R300: Partition command GO lets the partition fetch again. -/
  | pcmdGo (q : Requester) (p : Fin 16)
  /-- R314: A write of DONE in FE_RING_IDX_r also sets HEAD, and STAIL of a self ring. -/
  | ringIdxWrite (q : Requester) (r : Fin 64) (v : W64)
  /-- R312: Stream command READ copies a stream entry into FE_SDATA. -/
  | scmdRead (q : Requester) (index : BitVec 21) (fetched : Bytes)
  /-- R312: Stream command WRITE creates or replaces a stream entry, partially for an ACTIVE entry. -/
  | scmdWrite (q : Requester) (index : BitVec 21) (fetched : Bytes)
  /-- R312: Stream command PAUSE pauses an IDLE stream or sets PPEND on an ACTIVE one. -/
  | scmdPause (q : Requester) (index : BitVec 21) (fetched : Bytes)
  /-- R312: Stream command RESUME makes a PAUSED stream IDLE and clears PPEND. -/
  | scmdResume (q : Requester) (index : BitVec 21) (fetched : Bytes)
  /-- R312: Stream command FREE frees a non-ACTIVE stream. -/
  | scmdFree (q : Requester) (index : BitVec 21) (fetched : Bytes)
  /-- R312: Stream command FLUSH evicts a non-ACTIVE stream entry from the cache. -/
  | scmdFlush (q : Requester) (index : BitVec 21) (fetched : Bytes)
  /-- R320: The front end fetches a ferry descriptor and checks its format. -/
  | descriptorFetch (p : Fin 16) (data : Fetched)
  /-- R317: The front end places a checked descriptor in an engine queue by key, preference or load, once the queue has room. -/
  | descriptorPlacement (p : Fin 16)
  /-- R323: At a chunk boundary, or when it has none, an engine chooses the ready descriptor to run, pre-empting if needed. -/
  | engineChoose (e : Fin 64)
  /-- R321: An engine translates and issues the next piece of its active descriptor. -/
  | ferryPieceIssue (e : Fin 64)
  /-- R321: The target answers an issued piece with data or completion, or an error. -/
  | ferryPieceResponse (e : Fin 64) (r : PieceResponse)
  /-- R328: The last piece is acknowledged; the status block is written and then STALLY is incremented. -/
  | descriptorEnd (e : Fin 64)
  /-- R326: Every STINT ICLK cycles an idle engine steals the oldest stealable descriptor of its best neighbour. -/
  | stealAttempt (e : Fin 64)
  /-- R332: A chart walk completes with a translation or a chart fault. -/
  | chartWalkComplete (id : Nat) (entries : List Fetched64)
  /-- R340: Resolution command RETRY makes a parked descriptor ready with a fresh walk from RESUME. -/
  | rescmdRetry (q : Requester) (eng : BitVec 7) (slot : Fin 8)
  /-- R340: Resolution command ABORT ends a parked descriptor with STATUS CHART or HALT. -/
  | rescmdAbort (q : Requester) (eng : BitVec 7) (slot : Fin 8)
  /-- R341: Engine command PREEMPT parks the active descriptor at its next chunk boundary with CAUSE 1. -/
  | preempt (q : Requester) (e : Fin 64)
  /-- R343: All engines and the chart unit report the old generation drained and DGEN takes it. -/
  | generationDrained (p : Fin 16) (ccyTaken : Nat)
  /-- R344: 20 µs after the generation rose, outstanding old reads are abandoned and the drain completes. -/
  | drainOverrun (p : Fin 16)
  /-- R333: Invalidation command 1 drops every cached entry of a partition. -/
  | invPartition (q : Requester) (p : Fin 16)
  /-- R333: Invalidation command 2 drops cached entries of a virtual range. -/
  | invRange (q : Requester) (p : Fin 16) (va : BitVec 32)
  /-- R333: Invalidation command 3 drops every cached stream page of a partition. -/
  | invStreamPages (q : Requester) (p : Fin 16)
  /-- R386: A die receives the notice of tide n and starts counting TLATE. -/
  | synNotice (tide : W64) (term : BitVec 32)
  /-- R263: The die has the notice, every partition has arrived and every list is copied; it stops dispatch and new chunks. -/
  | dieArrival (ccy : BitVec 32)
  /-- R265: Every effect of the period is acknowledged; the die becomes SEALED and sends SEAL and its toll REPORT to the helm.
  `sinceStepUj` is the energy, in µJ, that the die has drawn since its last control step. -/
  | tideSeal (sinceStepUj : Nat) (ccy : BitVec 32)
  /-- R266: The helm receives a SEAL of a tide from a member. -/
  | synSeal (src : BitVec 6) (tide : W64)
  /-- R265: A release arrives; with the current term a SEALED die enters RECON, otherwise it is ignored and counted. -/
  | synRelease (tide : W64) (term : BitVec 32) (cclk : BitVec 32) (stall : Nat) (ccy : BitVec 32)
  /-- R269: In RECON the die reconciles tallies, applies CCLK, grants, configuration, re-striping and SCALE, and compares digests. -/
  | reconStart (ccy : BitVec 32)
  /-- R273: 64 ccy after the release the die enters RAMP and applies held TALLY messages. -/
  | rampStart (ccy : BitVec 32)
  /-- R273: A release wave ends; after wave 15 the die returns to RUN. -/
  | rampWaveEnd (waits : List Nat) (ccy : BitVec 32)
  /-- R264: A partition has not arrived TLATE × 1,024 ccy after the notice and is stopped with code TLATE. -/
  | tlateExpiry (p : Fin 16)
  /-- R267: A TALLY message is applied at once for the current period or held until RAMP, and then acknowledged. -/
  | synTally (h : Header) (tally : BitVec 16) (amount : Int) (tide : W64)
  /-- R386: A TACK acknowledges one TALLY sent to another die. -/
  | synTack (src : BitVec 6) (tally : BitVec 16)
  /-- R454: A received helm claim is accepted or ignored by term and position. -/
  | synClaim (term : BitVec 32) (pos : BitVec 6)
  /-- R458: A member's epoch and configuration digest arrive for comparison after RECON. -/
  | synDigest (src : BitVec 6) (epoch : W64) (digest : Bytes)
  /-- R37: A partner reports its CCLK; a mismatch on a fixed-latency landing holds its through-sailing partitions. -/
  | synCclk (l : Fin 8) (khz : BitVec 32)
  /-- R424: The helm receives a die's toll REPORT for a tide. -/
  | tollReport (src : BitVec 6) (r : TollReport)
  /-- R424: A GRANT arrives and applies in RECON of its tide if its term is current, otherwise counts as missed. -/
  | tollGrant (tide : W64) (grant term : BitVec 32)
  /-- R382: A CRET message returns receive credits of a class. -/
  | cret (l : Fin 8) (cls : Fin 6) (credits : BitVec 16)
  /-- R384: A BWR from another die is judged as a LAND remote write and answered WACK or ERR DENIED. -/
  | memBwr (l : Fin 8) (h : Header) (data : Bytes)
  /-- R384: A MEM RD or WR addressed to an Askolo die is answered ERR UNSUP. -/
  | memUnsupportedRequest (l : Fin 8) (h : Header)
  /-- R383: Read data returns for an issued read. -/
  | memRdr (l : Fin 8) (h : Header) (data : Bytes)
  /-- R383: A write completion returns for an issued write. -/
  | memWack (l : Fin 8) (h : Header)
  /-- R384: An ERR response ends the sender's ferry piece with MEMERR. -/
  | memErr (l : Fin 8) (h : Header) (code : Byte)
  /-- R373: S2M NDR Cmp completes a MemWr on a CXL landing. -/
  | cxlNdrCmp (l : Fin 8) (tag : BitVec 16) (error : Bool)
  /-- R373: S2M DRS MemData returns read data on a CXL landing; poison ends the piece with MEMERR. -/
  | cxlDrsMemdata (l : Fin 8) (tag : BitVec 16) (poison : Bool) (data : Bytes)
  /-- R379: A message with a reserved class or opcode, oversized payload or unagreed class is dropped and counted. -/
  | torecReservedMessage (l : Fin 8) (h : Header)
  /-- R380: An MGT, DBG, SYN or TOLL message for another die is forwarded by route, or dropped without one. -/
  | torecForward (l : Fin 8) (h : Header) (data : Bytes)
  /-- R522: A TRACE addressed to an Askolo die is discarded without count. -/
  | dbgTrace (l : Fin 8) (h : Header) (data : Bytes)
  /-- R387: A partner's capability block arrives over the sideband and is checked and agreed. -/
  | capabilityBlock (l : Fin 8) (data : Bytes)
  /-- R511: No partner capability block within 10 ms; the own block is resent once, then the landing goes DOWN. -/
  | capabilityTimeout (l : Fin 8)
  /-- R511: The sideband is not up 2 ms after the landing is enabled, and the module is retired. -/
  | sidebandUpTimeout (l : Fin 8) (m : Fin 4)
  /-- R374: A landing completes training with its protocol chosen, in ordinary, fixed-latency or loop mode, or stays DOWN. -/
  | trainingComplete (l : Fin 8) (t : Training)
  /-- R394: A fixed-latency frame arrives, FCHK is checked, control entries are decoded and slot words enter the slip buffer. -/
  | frameReceive (l : Fin 8) (f : Frame)
  /-- R242: A word waiting in a slip buffer is delivered at its gateway in its delivery cycle. -/
  | slipDelivery (l : Fin 8) (slot : Fin 8)
  /-- R392: An elastic unit unacknowledged for 64 ccy is sent again from that unit. -/
  | elasticResend (l : Fin 8)
  /-- R397: A lane error is counted; a growth of LTHR in a period marks the lane failed and starts repair, degradation or retirement. -/
  | laneError (l : Fin 8) (m : Fin 4) (lane : Fin 72) (n : Nat)
  /-- R403: A partner's change request is answered, with collisions won by the lower position. -/
  | rtreq (l : Fin 8) (pos : BitVec 6) (m : Fin 4) (kind : Fin 6)
  /-- R403: The partner accepts a change request. -/
  | rtack (l : Fin 8)
  /-- R403: The partner refuses a change request. -/
  | rtnak (l : Fin 8)
  /-- R511: No answer to RTREQ within 2 ms; the request is withdrawn with RES 3. -/
  | rtreqTimeout (l : Fin 8)
  /-- R399: Landing command RETRAIN starts a planned retrain of a module at a tide. -/
  | rtcmdRetrain (q : Requester) (l : Fin 8) (m : Fin 4)
  /-- R399: Landing command RETIRE starts a planned retirement of a module at a tide. -/
  | rtcmdRetire (q : Requester) (l : Fin 8) (m : Fin 4)
  /-- R399: Landing command RESTORE returns a module to service at a tide. -/
  | rtcmdRestore (q : Requester) (l : Fin 8) (m : Fin 4)
  /-- R399: A module finishes retraining and returns under the planned-change steps. -/
  | moduleRetrainComplete (l : Fin 8) (m : Fin 4)
  /-- R399: A module retrain not complete RTTMO ms after it began retires the module. -/
  | retrainTimeout (l : Fin 8) (m : Fin 4)
  /-- R400: A module loses lock or training between tides and is retired at once. -/
  | moduleLockLoss (l : Fin 8) (m : Fin 4)
  /-- R443: A reported fault stops the partition, fences the cluster, applies a lane bypass, restores the leg and records the fault. -/
  | faultDetected (r : FaultReport) (late : Bool)
  /-- R443: The restore to the leg's first stroke completes and the partition waits for the MP. -/
  | legRestoreComplete (p : Fin 16)
  /-- R444: Recovery command REPLAY resumes the partition at the leg's first stroke. -/
  | rcmdReplay (q : Requester) (p : Fin 16)
  /-- R444: Recovery command REMAP moves a logical core to the lowest spare site. -/
  | rcmdRemap (q : Requester) (p : Fin 16) (c : BitVec 11) (core : Fin 64)
  /-- R444: Recovery command FENCE fences a cluster for good. -/
  | rcmdFence (q : Requester) (p : Fin 16) (c : BitVec 11)
  /-- R444: Recovery command END ends the voyage of the partition in error. -/
  | rcmdEnd (q : Requester) (p : Fin 16)
  /-- R444: No REPLAY or END RWD µs after the stop; the fault unit takes the default action and posts event 0x0806. -/
  | rwdExpiry (p : Fin 16)
  /-- R448: A member's replay notice has not arrived 100 µs after the stop; every member ends the voyage with FCODE 0x46. -/
  | joinTimeout (p : Fin 16)
  /-- R414: Every 500 ns the controller attributes energy, computes cap and rail densities, updates burst credit and sets partition densities. -/
  | powerControlStep (m : PowerMeas)
  /-- R420: Every 10 µs the thermal unit reads all 64 sensors to form Tj. -/
  | thermalSample (temps : List Int)
  /-- R421: A rail current reaches ICLAMP; the regulator clamps it and affected partitions take density 255. -/
  | overcurrentClamp (rail : Fin 36)
  /-- R421: A clamp engaged for 10 µs, or a rail below 90 percent for 10 µs, fires the trip. -/
  | railFault (rail : Fin 36)
  /-- R422: A sensor comparator at 120 °C or a rail fault latches the trip, drives THERMTRIP_N and gates clocks, landings and rails. -/
  | thermalTrip (sensor : Fin 64)
  /-- R423: Each ccy a droop margin below DDTHR stretches the ramp wave, delays a READY start and blocks density falls. -/
  | droopDetect (region : Fin 25) (mv : Nat)
  /-- R525: Loop test command START runs pattern PAT on every LOOP module for DUR ms, or is refused. -/
  | loopTestStart (q : Requester) (v : W64)
  /-- R525: DUR ms after the start, the loop test ends and CLEAN and REPAIR are set. -/
  | loopTestEnd (errs : List LoopErr) (eye : List Nat)
  /-- R521: A write of DBG_CAP with ARM set arms a lane capture that records accumulate cycles from START. -/
  | captureArm (q : Requester) (v : W64)
  /-- R511: A module's sideband comes up and the die sends its own capability block within 10 µs. -/
  | sidebandUp (l : Fin 8) (m : Fin 4)
  /-- R403: The partner begins a physical retrain of a module, which proceeds under the standard while the die's own request waits until it completes. -/
  | partnerRetrain (l : Fin 8) (m : Fin 4) (done : Bool)
  /-- R441: An ordinary-mode flit fails the UCIe adapter CRC; it is retried and never delivered, and RETRY of LND_CNT advances. -/
  | adapterRetry (l : Fin 8)
  /-- R421: A rail's current falls back below ICLAMP, ending the clamp episode, whose duration event 0x0706 reports, and releasing the forced density of 255. -/
  | clampRelease (rail : Fin 36) (ns : Nat)
  /-- R452: The reference monitor finds that a candidate input gains or loses its clock and updates CAND0 or CAND1 of CLK_REF. -/
  | candidateClockChange (cand : Fin 2) (clocked : Bool)
  /-- R505: VIN ramps to 1.14 V, starting the always-on rail, the 25 MHz oscillator and the trip logic. -/
  | vinPowerOn
  /-- R505: PWRGD rises to show that VIN is within range. -/
  | pwrgdRise
  /-- R506: PWRGD falls and puts the die in reset within 1 µs; landings enter electrical idle within 10 µs. -/
  | pwrgdFall
  /-- R506: VIN stays below 1.10 V for 1 µs and puts the die in reset with CAUSE 1. -/
  | vinUndervoltage
  /-- R507: RST_N goes low and resets every block except the ring log and SATEST. -/
  | rstNFall
  /-- R515: TRST_N resets the TAP asynchronously and selects IDCODE. -/
  | trstNAssert
  /-- R515: TAP instruction that selects the 32-bit identification register. -/
  | idcode
  /-- R482: I3C CCC that resets the dynamic address. -/
  | rstdaa
  /-- R482: I3C CCC that returns the maximum write length. -/
  | getmwl
  /-- R482: I3C CCC that returns the maximum read length. -/
  | getmrl
  /-- R482: I3C CCC that returns the provisioned ID. -/
  | getpid
  /-- R482: I3C CCC that returns BCR 0x00. -/
  | getbcr
  /-- R482: I3C CCC that returns DCR 0x00. -/
  | getdcr
  /-- R482: I3C CCC that returns the target status. -/
  | getstatus
  /-- R482: An I3C private read returns the response to the last request, or is NACKed until that response is ready. -/
  | i3cPrivateRead
  /-- R434: Bring-up step 2: the security block verifies the firmware image and the MP starts it. -/
  | stepFirmware
  /-- R434: Bring-up step 4: every enabled landing trains in ordinary mode from its ledger or in full, and GBW is set. -/
  | stepTrain
  /-- R438: Bring-up step 5: the cluster, core and lane maps are built from the fused and field defect maps. -/
  | stepMap
  /-- R434: Bring-up step 8: the reference multiplexer switches, the PLLs relock, CCLK is set and FLREQ landings train into fixed-latency mode. -/
  | stepClock
  /-- R434: Bring-up step 9: the members wait for a helm claim, and tide 0 is noticed and released. -/
  | stepHelm
  /-- R493: Bring-up step 10: after digest agreement at two successive tides the configuration is sealed. -/
  | stepSeal
  /-- R434: Bring-up step 11: the front end, ferry engines and chart unit are enabled. -/
  | stepRun
  /-- R353: Partition command CREATE checks the request and sets up tallies, ferry shares, chart root, power fraction and, for affinity, the rectangle. -/
  | create
  /-- R354: Partition command DISSOLVE drains and resets the partition and returns its clusters, tallies, share and power fraction. -/
  | dissolve
  /-- R490: New firmware has not kicked the watchdog within 50 ms, so the MP restarts from the old slot. -/
  | firmwareRevert
  /-- R492: The signed attestation report becomes ready within 20 ms of the nonce. -/
  | attestationReportReady
  /-- R420: Every 1 ms the thermal unit raises or lowers TLVL and recomputes TCAP. `same` of its samples since the last
  THERMAL_SAMPLE have read what that one read. -/
  | throttleUpdate (same : Nat)
  /-- R485: At rank 5 the MP copies ring-log records to the persistent log and then writes its header. -/
  | persistentLogCopy
  /-- R452: The selected reference shows no edge for 100 ns; PLLs enter holdover and through-sailing partitions stop with FCODE 0x41. -/
  | candidateEdgeTimeout
  /-- R452: LOCK has not returned 20 ms after the loss; every partition stops with FCODE 0x41 and every landing goes DOWN. -/
  | holdoverExpiry
  /-- R451: The PLLs lock to the selected candidate; LOCK is set and event 0x0809 is posted. -/
  | referenceLock
  /-- R306: While EN is set, the event writer appends the oldest queued event to the event ring. -/
  | eventAppend
  /-- R324: Every 1,024 ICLK cycles each partition's bucket gains its scaled rate, up to BURST. -/
  | bucketRefill
  /-- R339: A fault record is written to the fault queue once it has room, posting event 0x0501. -/
  | faultRecordWrite
  /-- R333: Every walk begun before the invalidation has ended, so BUSY clears. -/
  | invalidationComplete
  /-- R261: The helm counts TPER ccy from its last release and broadcasts the notice of the next tide. -/
  | helmTideNotice
  /-- R266: The helm holds every member's seal and broadcasts the release with its term and any new CCLK. -/
  | helmRelease
  /-- R265: A SEALED die receives no valid release within TLATE × 1,024 ccy and posts the stall event once. -/
  | tideStall
  /-- R425: The helm MP computes the grants of tide n + 1 from the reports of tide n and sends them. -/
  | grantCompute
  deriving DecidableEq, Repr

end Sys2Proof
end

