-- ==== Sys2Proof/Decode.lean ====
section
/-! DEFINITION. The table of operations and events gives no row an encoding: no word spells a command. -/

namespace Sys2Proof

/-- The command a word spells by the bits of the table: no row has bits, so none. -/
def decodeTableWord (_nbits _w : Nat) : Option Instr := none

end Sys2Proof
end

