-- ==== Sys2Proof/Config.lean ====
section
/-! DEFINITION. What the spec leaves open: each value here is a constant with no body, so a claim holds
whatever it is. The assumption log says where each is applied. -/

namespace Sys2Proof.Config

/-- R106: exp in FP64 is within 1 ulp and otherwise not stated; picks one of the admitted results. -/
opaque exp64 : Nat → Nat
/-- R106: log in FP64, as `exp64`. -/
opaque log64 : Nat → Nat
/-- R134: GELU is within 2 ulp of the exact function and otherwise not stated. -/
opaque gelu : Nat → Nat
/-- R134: SiLU, as `gelu`. -/
opaque silu : Nat → Nat
/-- R134: sigmoid, as `gelu`. -/
opaque sigmoid : Nat → Nat
/-- R134: tanh, as `gelu`. -/
opaque tanh : Nat → Nat
/-- R516: what SATEST captures in its 1-bit register is not stated. -/
opaque satestBit : Nat → BitVec 1
/-- R482: the value GETSTATUS returns is not stated. -/
opaque i3cStatus : Nat → BitVec 16
/-- R492: the signature of an attestation report (a fresh ECDSA signature by a fused secret key). -/
opaque attestByte : Nat → Nat → BitVec 8
/-- R487: the MP's integer registers, pc and CSRs of dump section 4. -/
opaque mpCore : Nat → Nat → BitVec 64
/-- R487: byte of the MP's data region in dump section 6. -/
opaque mpData : Nat → Nat → BitVec 8
/-- R415: the density of a rail whose partitions draw no dynamic current is not stated (n-th free value, rail). -/
opaque railDensity : Nat → Nat → BitVec 8
/-- R460: FLT_PREC.ELAPSED, ns since the stop, as a read finds it (the n-th free value). -/
opaque elapsedNs : Nat → BitVec 32
/-- R431: OD 0x1200:05, µs spent in a step that is still BUSY, as a read finds it. -/
opaque elapsedUs : Nat → BitVec 32
/-- R487: µs since reset, as a dump that an ODWR of DUMPREQ asks for finds it. -/
opaque upTime : Nat → BitVec 64
/-- R478: the retry-after of a BUSY reply for which the spec names none. -/
opaque retryAfter : Nat → BitVec 16
/-- R435: byte of a training ledger that records an analogue setting of the link (n-th free value, landing, module, offset). -/
opaque ledgerByte : Nat → Nat → Nat → Nat → BitVec 8
/-- R189, R214: the syndrome the ECC logic reports for an error is not stated (place of the word, errors counted). -/
opaque syndrome : Nat → Nat → BitVec 8
/-- R383: a write names whole 16-byte units; what stands in the bytes of a unit that are not written is not stated (n-th free
value, byte of the unit). -/
opaque unitByte : Nat → Nat → BitVec 8
/-- R391: TAG of a frame of a landing on which no schedule runs is not stated. -/
opaque frameTag : Nat → BitVec 8

end Sys2Proof.Config
end

