-- ==== Sys2Proof/Machine/Bits.lean ====
section
/-! DEFINITION. Bit fields, byte strings, sparse maps and small list helpers used by every family. -/

namespace Sys2Proof.Machine

/-! ### Numbers and bits -/

/-- Bits `lo` to `lo + w - 1` of `v`. -/
def bits (v lo w : Nat) : Nat := (v >>> lo) % 2 ^ w

/-- `v` with its bits `lo` to `lo + w - 1` replaced by the low `w` bits of `x`. -/
def putBits (v lo w x : Nat) : Nat :=
  v - ((v >>> lo) % 2 ^ w) * 2 ^ lo + (x % 2 ^ w) * 2 ^ lo

/-- Bit `i` of `v`. -/
def bitAt (v i : Nat) : Bool := (v >>> i) % 2 == 1

/-- 1 for true. -/
def b2n (b : Bool) : Nat := if b then 1 else 0

/-- The two's complement reading of the low `w` bits of `v`. -/
def sext (w v : Nat) : Int :=
  let u := v % 2 ^ w
  if u < 2 ^ (w - 1) then (u : Int) else (u : Int) - (2 ^ w : Nat)

/-- `x` modulo `2 ^ w`, as a natural number. -/
def wrapN (w : Nat) (x : Int) : Nat := (x % (2 ^ w : Nat)).toNat

/-- `a + n` held at the top of a `w`-bit counter. -/
def satAdd (w a n : Nat) : Nat := min (a + n) (2 ^ w - 1)

/-- Ceiling of a quotient. -/
def cdiv (a b : Nat) : Nat := (a + b - 1) / b

/-- Number of one bits among the low `w` bits of `v`. -/
def popcount : Nat → Nat → Nat
  | 0, _ => 0
  | w + 1, v => v % 2 + popcount w (v / 2)

/-- Number of bits of `v` (0 for 0). -/
def bitLen (v : Nat) : Nat := if v = 0 then 0 else Nat.log2 v + 1

/-- Bitwise exclusive or with a set bit. -/
def setBit (v i : Nat) (b : Bool) : Nat := putBits v i 1 (b2n b)

/-! ### Byte strings, little endian -/

/-- The low `n` bytes of `v`, least significant first. -/
def leBytes : Nat → Nat → Bytes
  | 0, _ => []
  | n + 1, v => BitVec.ofNat 8 v :: leBytes n (v / 256)

/-- The number a byte string spells, least significant byte first. -/
def leNat : Bytes → Nat
  | [] => 0
  | b :: r => b.toNat + 256 * leNat r

/-- The number a byte string spells, most significant byte first. -/
def beNat (bs : Bytes) : Nat := bs.foldl (fun a b => a * 256 + b.toNat) 0

/-- The low `n` bytes of `v`, most significant first. -/
def beBytes (n v : Nat) : Bytes := (leBytes n v).reverse

/-- Bytes `off` to `off + n - 1` of a byte string; bytes past its end read 0. -/
def slice (bs : Bytes) (off n : Nat) : Bytes :=
  let t := (bs.drop off).take n
  t ++ List.replicate (n - t.length) 0

/-- The little-endian number in `n` bytes at `off`. -/
def leAt (bs : Bytes) (off n : Nat) : Nat := leNat (slice bs off n)

/-- A byte string overwritten at `off` by `x`; bytes past its end are dropped. -/
def overwrite (bs : Bytes) (off : Nat) (x : Bytes) : Bytes :=
  (bs.take off ++ x ++ bs.drop (off + x.length)).take (max bs.length off)

/-- The ASCII bytes of a text. -/
def asciiBytes (s : String) : Bytes := s.toList.map (fun c => BitVec.ofNat 8 c.toNat)

/-! ### Sparse maps -/

end Sys2Proof.Machine

namespace Sys2Proof

/-- What key `k` holds; `d` where it is not listed. -/
def SMap.get {α : Type} (d : α) : SMap α → Nat → α
  | [], _ => d
  | (j, v) :: r, k => if j = k then v else SMap.get d r k

/-- Insert or replace key `k`, listed whatever the value. -/
def SMap.put {α : Type} : SMap α → Nat → α → SMap α
  | [], k, v => [(k, v)]
  | (j, w) :: r, k, v =>
    if j = k then (k, v) :: r else if k < j then (k, v) :: (j, w) :: r else (j, w) :: SMap.put r k v

/-- Remove key `k`. -/
def SMap.del {α : Type} : SMap α → Nat → SMap α
  | [], _ => []
  | (j, w) :: r, k => if j = k then SMap.del r k else (j, w) :: SMap.del r k

/-- Set key `k` to `v`, keeping the canonical form: the default is never listed. -/
def SMap.set {α : Type} [DecidableEq α] (d : α) (m : SMap α) (k : Nat) (v : α) : SMap α :=
  if v = d then SMap.del m k else SMap.put m k v

/-- Change key `k`. -/
def SMap.upd {α : Type} [DecidableEq α] (d : α) (m : SMap α) (k : Nat) (f : α → α) : SMap α :=
  SMap.set d m k (f (SMap.get d m k))

/-- The entry of key `k`, if listed. -/
def SMap.find {α : Type} : SMap α → Nat → Option α
  | [], _ => none
  | (j, v) :: r, k => if j = k then some v else SMap.find r k

/-- The canonical form: strictly rising keys, the default never listed. -/
def SMap.wf {α : Type} [DecidableEq α] (d : α) : SMap α → Bool
  | [] => true
  | (_, v) :: [] => decide (v ≠ d)
  | (j, v) :: (k, w) :: r => decide (v ≠ d) && decide (j < k) && SMap.wf d ((k, w) :: r)

/-- Byte `a` of a store; an address nothing has written holds 0. (log 20, DESIGN CHOICE) -/
def Mem.byte (m : Mem) (a : Nat) : Byte := SMap.get 0 m a

/-- Write byte `a`. -/
def Mem.write (m : Mem) (a : Nat) (b : Byte) : Mem := SMap.set 0 m a b

/-- `n` bytes from `a`. -/
def Mem.bytes (m : Mem) (a : Nat) : Nat → Bytes
  | 0 => []
  | n + 1 => m.byte a :: Mem.bytes m (a + 1) n

/-- Write a byte string from `a`. -/
def Mem.store (m : Mem) (a : Nat) : Bytes → Mem
  | [] => m
  | b :: r => Mem.store (m.write a b) (a + 1) r

/-- Clear every byte `a` with `lo ≤ a < hi`. -/
def Mem.clear (m : Mem) (lo hi : Nat) : Mem := m.filter (fun c => decide (c.1 < lo ∨ hi ≤ c.1))

/-- The canonical form of a store's contents. -/
def Mem.wf (m : Mem) : Bool := SMap.wf (0 : Byte) m

end Sys2Proof

namespace Sys2Proof.Machine

/-! ### Lists -/

/-- Replace element `i`, where it exists. -/
def listSet {α : Type} : List α → Nat → α → List α
  | [], _, _ => []
  | _ :: r, 0, v => v :: r
  | x :: r, n + 1, v => x :: listSet r n v

/-- Change element `i`, where it exists. -/
def listMod {α : Type} : List α → Nat → (α → α) → List α
  | [], _, _ => []
  | x :: r, 0, f => f x :: r
  | x :: r, n + 1, f => x :: listMod r n f

/-- Element `i`, or `d`. -/
def listGet {α : Type} (d : α) : List α → Nat → α
  | [], _ => d
  | x :: _, 0 => x
  | _ :: r, n + 1 => listGet d r n

/-- The index of the first element that `p` accepts. -/
def findIdx {α : Type} (p : α → Bool) : List α → Option Nat
  | [] => none
  | x :: r => if p x then some 0 else (findIdx p r).map (· + 1)

/-- Insert into a list sorted by `key`, after the elements of equal key. -/
def insertBy {α : Type} (key : α → Nat) (x : α) : List α → List α
  | [] => [x]
  | y :: r => if key x < key y then x :: y :: r else y :: insertBy key x r

/-- A stable insertion sort. -/
def sortBy {α : Type} (key : α → Nat) (l : List α) : List α :=
  l.foldl (fun acc x => insertBy key x acc) []

/-- Keep the first of every run of equal elements anywhere in the list. -/
def nub {α : Type} [DecidableEq α] : List α → List α
  | [] => []
  | x :: r => x :: (nub r).filter (fun y => decide (y ≠ x))

/-! ### Cyclic redundancy checks -/

/-- One bit of a reflected CRC with polynomial `poly`. -/
def crcBit (poly c : Nat) : Nat := if c % 2 = 1 then Nat.xor (c / 2) poly else c / 2

/-- One byte of a reflected CRC. -/
def crcByteR (poly c : Nat) (b : Byte) : Nat :=
  (List.range 8).foldl (fun a _ => crcBit poly a) (Nat.xor c b.toNat)

/-- One byte of a most-significant-first CRC of width `w`. -/
def crcByteM (w poly c : Nat) (b : Byte) : Nat :=
  (List.range 8).foldl
    (fun a _ => if bitAt a (w - 1) then Nat.xor (a * 2 % 2 ^ w) poly else a * 2 % 2 ^ w)
    (Nat.xor c (b.toNat * 2 ^ (w - 8)))

end Sys2Proof.Machine
end

