-- ==== Sys2Proof/Machine/Operands.lean ====
section
/-! DEFINITION. The element formats of R45-R57, the values their encodings stand for, and the internal form of R58. -/

namespace Sys2Proof.Machine

/-- The element formats of R45; `mx…` are elements of a microscaling block. -/
inductive Fmt where
  | fp64 | fp32 | fp16 | bf16 | e4m3 | e5m2 | mxE4m3 | mxE5m2 | mxE3m2 | mxE2m3 | mxE2m1 | mxInt8 | int8 | int4
  deriving DecidableEq, Repr

/-- R45: the format a 4-bit code names; 0xE and 0xF are reserved. -/
def fmtOf : Nat → Option Fmt
  | 0 => some .fp64 | 1 => some .fp32 | 2 => some .fp16 | 3 => some .bf16 | 4 => some .e4m3 | 5 => some .e5m2
  | 6 => some .mxE4m3 | 7 => some .mxE5m2 | 8 => some .mxE3m2 | 9 => some .mxE2m3 | 10 => some .mxE2m1
  | 11 => some .mxInt8 | 12 => some .int8 | 13 => some .int4 | _ => none

namespace Fmt

/-- Element width in bits (R45). -/
def width : Fmt → Nat
  | fp64 => 64 | fp32 => 32 | fp16 | bf16 => 16 | mxE3m2 | mxE2m3 => 6 | mxE2m1 | int4 => 4 | _ => 8

/-- An MX element format. -/
def isMx : Fmt → Bool
  | mxE4m3 | mxE5m2 | mxE3m2 | mxE2m3 | mxE2m1 | mxInt8 => true
  | _ => false

/-- An integer format (R54). -/
def isInt : Fmt → Bool
  | mxInt8 | int8 | int4 => true
  | _ => false

/-- Formats a lane takes as an operand (R45, R46). -/
def isLane : Fmt → Bool
  | fp64 | fp32 => false
  | _ => true

/-- Exponent field width (R47). -/
def ebits : Fmt → Nat
  | fp64 => 11 | fp32 | bf16 => 8 | fp16 | e5m2 | mxE5m2 => 5 | e4m3 | mxE4m3 => 4 | mxE3m2 => 3
  | mxE2m3 | mxE2m1 => 2 | _ => 0

/-- Fraction field width (R47). -/
def mbits : Fmt → Nat
  | fp64 => 52 | fp32 => 23 | fp16 => 10 | bf16 => 7 | e5m2 | mxE5m2 | mxE3m2 => 2 | e4m3 | mxE4m3 | mxE2m3 => 3
  | mxE2m1 => 1 | _ => 0

/-- Exponent bias (R47). -/
def bias : Fmt → Nat
  | fp64 => 1023 | fp32 | bf16 => 127 | fp16 | e5m2 | mxE5m2 => 15 | e4m3 | mxE4m3 => 7 | mxE3m2 => 3
  | mxE2m3 | mxE2m1 => 1 | _ => 0

/-- The exponent of the smallest normal value (R47). -/
def emin (f : Fmt) : Int := 1 - (f.bias : Int)

/-- The formats that have infinities (R49). -/
def hasInf : Fmt → Bool
  | fp64 | fp32 | fp16 | bf16 | e5m2 | mxE5m2 => true
  | _ => false

/-- The formats that have NaNs (R49, R50). -/
def hasNan : Fmt → Bool
  | fp64 | fp32 | fp16 | bf16 | e5m2 | mxE5m2 | e4m3 | mxE4m3 => true
  | _ => false

/-- The encoding of the largest finite value, sign clear (R47). -/
def maxEnc : Fmt → Nat
  | fp64 => 0x7FEFFFFFFFFFFFFF | fp32 => 0x7F7FFFFF | fp16 => 0x7BFF | bf16 => 0x7F7F | e5m2 | mxE5m2 => 0x7B
  | e4m3 | mxE4m3 => 0x7E | mxE3m2 | mxE2m3 => 0x1F | mxE2m1 => 0x7 | mxInt8 | int8 => 0x7F | int4 => 0x7

/-- The canonical NaN (R52). -/
def nanEnc : Fmt → Nat
  | fp64 => 0x7FF8000000000000 | fp32 => 0x7FC00000 | fp16 => 0x7E00 | bf16 => 0x7FC0 | e5m2 | mxE5m2 => 0x7E
  | e4m3 | mxE4m3 => 0x7F | _ => 0

/-- The encoding of infinity, sign clear (R49). -/
def infEnc (f : Fmt) : Nat := (2 ^ f.ebits - 1) * 2 ^ f.mbits

/-- `emax_elem` of R73. -/
def emaxElem : Fmt → Int
  | mxE4m3 => 8 | mxE5m2 => 15 | mxE3m2 => 4 | mxE2m3 | mxE2m1 => 2 | _ => 0

/-- `q_lo` of R87. -/
def qlo : Fmt → Int
  | fp16 => -24 | bf16 => -133 | e5m2 | mxE5m2 => -16 | e4m3 | mxE4m3 => -9 | mxE3m2 => -4 | mxE2m3 => -3
  | mxE2m1 => -1 | mxInt8 => -6 | _ => 0

/-- Elements of a slice in the format's own rate class (R112). -/
def sliceElems : Fmt → Nat
  | mxE2m1 | int4 => 4
  | fp16 | bf16 | fp32 | fp64 => 1
  | _ => 2

end Fmt

/-- R113: a pair takes the rate class of its wider format. -/
def pairElems (a b : Fmt) : Nat := min a.sliceElems b.sliceElems

/-- The value of an element: a finite `±mag × 2^ex`, an infinity, or a NaN (`sig`: signalling). -/
inductive Val where
  | fin (neg : Bool) (mag : Nat) (ex : Int)
  | inf (neg : Bool)
  | nan (sig : Bool)
  deriving DecidableEq, Repr

namespace Val

/-- The sign, clear for a NaN. -/
def neg : Val → Bool
  | .fin n _ _ => n | .inf n => n | .nan _ => false

/-- A finite zero. -/
def isZero : Val → Bool
  | .fin _ m _ => m == 0 | _ => false

/-- A NaN of either kind. -/
def isNan : Val → Bool
  | .nan _ => true | _ => false

/-- A signalling NaN. -/
def isSig : Val → Bool
  | .nan s => s | _ => false

/-- An infinity. -/
def isInf : Val → Bool
  | .inf _ => true | _ => false

/-- Exact multiplication by `2 ^ k`. -/
def scale (v : Val) (k : Int) : Val :=
  match v with
  | .fin n m e => .fin n m (e + k)
  | x => x

/-- Sign reversed where `b`. -/
def negIf (v : Val) (b : Bool) : Val :=
  match v with
  | .fin n m e => .fin (n ^^ b) m e
  | .inf n => .inf (n ^^ b)
  | x => x

/-- The value as an integer multiple of `2 ^ e`, for `e` at or below its exponent. -/
def atExp (v : Val) (e : Int) : Int :=
  match v with
  | .fin n m x => (if n then -1 else 1) * ((m * 2 ^ (x - e).toNat : Nat) : Int)
  | _ => 0

/-- The exponent of a finite value. -/
def exp : Val → Int
  | .fin _ _ e => e | _ => 0

/-- `floor (log2 |v|)` of a finite non-zero value. -/
def log2 : Val → Int
  | .fin _ m e => (bitLen m : Int) - 1 + e
  | _ => 0

end Val

/-- The exact finite value `n × 2 ^ e`; a zero takes the sign `zs`. -/
def ofIntExp (n : Int) (e : Int) (zs : Bool) : Val :=
  if n = 0 then .fin zs 0 0 else .fin (decide (n < 0)) n.natAbs e

/-- R47-R54: the value an element encoding stands for, before any block scale. -/
def decodeFmt (f : Fmt) (enc : Nat) : Val :=
  if f.isInt then
    let v := sext f.width enc
    ofIntExp v (if f = .mxInt8 then -6 else 0) false
  else
    let m := f.mbits
    let fr := bits enc 0 m
    let ef := bits enc m f.ebits
    let s := bitAt enc (m + f.ebits)
    if f.hasInf && ef == 2 ^ f.ebits - 1 then
      if fr == 0 then .inf s
      else .nan (match f with
        | .e5m2 | .mxE5m2 => false
        | _ => !(bitAt fr (m - 1)))
    else if f.hasNan && !f.hasInf && bits enc 0 (m + f.ebits) == 2 ^ (m + f.ebits) - 1 then .nan false
    else if ef == 0 then .fin s fr (f.emin - m)
    else .fin s (2 ^ m + fr) ((ef : Int) - f.bias - m)

/-- R55: an element under its block scale. -/
def decodeScaled (f : Fmt) (enc sc : Nat) : Val :=
  if f.isMx then
    if sc = 0xFF then .nan false else (decodeFmt f enc).scale ((sc : Int) - 127)
  else decodeFmt f enc

/-! ### The internal form (R58, R59) -/

/-- The class of an internal form. -/
inductive Cls where
  | fin | zero | inf | nan
  deriving DecidableEq, Repr

/-- The internal form: value `(-1)^s × m × 2^(e - 10)`; `snan` marks a signalling NaN the feeder decoded (R93). -/
structure IForm where
  cls : Cls
  s : Bool
  e : Int
  m : Nat
  snan : Bool
  deriving DecidableEq, Repr

/-- The internal form of +0. -/
def IForm.pzero : IForm := ⟨.zero, false, 0, 0, false⟩

/-- R58: the 24 bits of an internal form. -/
def IForm.word (i : IForm) : Nat :=
  (match i.cls with | .fin => 0 | .zero => 1 | .inf => 2 | .nan => 3) * 2 ^ 22 + b2n i.s * 2 ^ 21 +
    wrapN 10 i.e * 2 ^ 11 + i.m % 2 ^ 11

/-- R59: an element decoded into the internal form; the scale only matters when it is 0xFF. -/
def toIForm (f : Fmt) (enc sc : Nat) : IForm :=
  if f.isMx && sc == 0xFF then ⟨.nan, false, 0, 0, false⟩
  else
    match decodeFmt f enc with
    | .nan sig => ⟨.nan, false, 0, 0, sig⟩
    | .inf n => ⟨.inf, n, 0, 0, false⟩
    | .fin n m ex =>
      if m = 0 then ⟨.zero, n, 0, 0, false⟩
      else if f.isInt then ⟨.fin, n, ex + 10, m, false⟩
      else ⟨.fin, n, ex + f.mbits, m * 2 ^ (10 - f.mbits), false⟩

/-! ### Packing (R57) -/

/-- Bit position, within the berth, of element `a` of width `w` (6-bit elements pack four to three bytes, so
every width packs contiguously from bit 0 of byte 0). -/
def elemBit (w a : Nat) : Nat := a * w

/-- Bytes covered by `n` elements of width `w` from element `a`: the first byte and one past the last. -/
def elemSpan (w a n : Nat) : Nat × Nat := (a * w / 8, cdiv ((a + n) * w) 8)

end Sys2Proof.Machine
end

