-- ==== Sys2Proof/Machine/Flags.lean ====
section
/-! DEFINITION. Rounding (R60-R65), the flags it sets (R66, R67), conversion (R68-R72), MX encoding (R73) and the
stochastic generator (R100). Flags are numbers whose bits are those of the flag word (R137): NX 1, UF 2, OF 4, DZ 8, NV 16. -/

namespace Sys2Proof.Machine

/-- Flag values (R137). -/
abbrev fNX : Nat := 1
abbrev fUF : Nat := 2
abbrev fOF : Nat := 4
abbrev fDZ : Nat := 8
abbrev fNV : Nat := 16
abbrev fSH : Nat := 32
abbrev fWOF : Nat := 64

/-- OR of flags. -/
def orF (a b : Nat) : Nat := Nat.lor a b

/-- How a magnitude rounds: the five modes of R60 (with the random value of R63 for SR), or a fixed choice between
the two neighbours, for the functions whose result the spec leaves open within a bound. -/
inductive Rnd where
  | rne | rtz | rup | rdn
  | sr (u : Nat)
  | pick (up : Bool)
  deriving DecidableEq, Repr

/-- R60: the mode a 3-bit code names, given the random value of the element. -/
def rndOf (code u : Nat) : Rnd :=
  if code = 1 then .rtz else if code = 2 then .rup else if code = 3 then .rdn
  else if code = 4 then .sr u else .rne

/-- Round the magnitude `mag × 2 ^ ex` onto multiples of `2 ^ l`: the multiple, and whether it is inexact. -/
def roundMag (r : Rnd) (neg : Bool) (mag : Nat) (ex l : Int) : Nat × Bool :=
  if l ≤ ex then (mag * 2 ^ (ex - l).toNat, false)
  else
    let k := (l - ex).toNat
    let q := mag / 2 ^ k
    let rem := mag % 2 ^ k
    if rem = 0 then (q, false)
    else
      let up : Bool := match r with
        | .rne => decide (2 ^ k < 2 * rem) || (decide (2 * rem = 2 ^ k) && q % 2 == 1)
        | .rtz => false
        | .rup => !neg
        | .rdn => neg
        | .sr u => decide (u < rem * 65536 / 2 ^ k)
        | .pick b => b
      (if up then q + 1 else q, true)

/-- Put the sign of an element encoding. -/
def withSign (f : Fmt) (neg : Bool) (enc : Nat) : Nat := if neg then enc + 2 ^ (f.width - 1) else enc

/-- R64, R65: the encoding an overflowing result takes. -/
def overflowEnc (f : Fmt) (r : Rnd) (om : Bool) (neg : Bool) : Nat :=
  let mx := withSign f neg f.maxEnc
  let towardMax : Bool := match r with
    | .rtz => true
    | .rup => neg
    | .rdn => !neg
    | .pick up => !up
    | _ => false
  let ieee : Bool := match f with
    | .fp64 | .fp32 | .fp16 | .bf16 => true
    | .e5m2 => !om
    | _ => false
  if ieee then if towardMax then mx else withSign f neg f.infEnc
  else if f = .e4m3 && om then if towardMax then mx else f.nanEnc
  else mx

/-- A target keeps an infinite source exactly (R64, R65). -/
def keepsInf (f : Fmt) (om : Bool) : Bool :=
  match f with
  | .fp64 | .fp32 | .fp16 | .bf16 => true
  | .e5m2 => !om
  | _ => false

/-- Encode the magnitude `n × 2 ^ l` of a floating format, where it is representable. -/
def encodeMag (f : Fmt) (n : Nat) (l : Int) : Nat :=
  -- l = max(e, emin) - m, so a normal result has n in 2^m .. 2^(m+1)
  if n < 2 ^ f.mbits then n
  else
    let sh := bitLen n - 1 - f.mbits
    let n' := n / 2 ^ sh
    let ef := (l + sh + f.mbits + f.bias).toNat
    ef * 2 ^ f.mbits + (n' - 2 ^ f.mbits)

/-- R60-R67: round a finite value into a floating format. -/
def roundFloat (f : Fmt) (r : Rnd) (om : Bool) (neg : Bool) (mag : Nat) (ex : Int) : Nat × Nat :=
  if mag = 0 then (withSign f neg 0, 0)
  else
    let lg : Int := (bitLen mag : Int) - 1 + ex
    let l : Int := max lg f.emin - f.mbits
    let (n, inex) := roundMag r neg mag ex l
    let past : Bool :=
      -- compare n × 2^l with the largest finite value
      match decodeFmt f f.maxEnc with
      | .fin _ mm me => decide (mm * 2 ^ (me - (min me l)).toNat < n * 2 ^ (l - (min me l)).toNat)
      | _ => false
    if past then (overflowEnc f r om neg, fOF + fNX)
    else
      let tiny : Bool :=
        if lg < f.emin then
          let l' := lg - f.mbits
          let (n', _) := roundMag r neg mag ex l'
          -- n' × 2^l' < 2^emin
          decide ((bitLen n' : Int) - 1 + l' < f.emin)
        else false
      (withSign f neg (encodeMag f n l), if inex then (if tiny then fUF + fNX else fNX) else 0)

/-- R71: round a finite value onto the integer grid of a format. -/
def roundInt (f : Fmt) (r : Rnd) (neg : Bool) (mag : Nat) (ex : Int) : Nat × Nat :=
  let (n, inex) := roundMag r neg mag ex (if f = .mxInt8 then -6 else 0)
  let lim := 2 ^ (f.width - 1)
  if neg then
    if lim < n then (lim, fNV) else (wrapN f.width (-(n : Int)), if inex then fNX else 0)
  else
    if lim - 1 < n then (lim - 1, fNV) else (n, if inex then fNX else 0)

/-- R68-R72: a value converted into a format under a rounding and an overflow mode: its encoding and its flags. -/
def convertVal (f : Fmt) (r : Rnd) (om : Bool) (v : Val) : Nat × Nat :=
  if f.isInt then
    match v with
    | .nan _ => (0, fNV)
    | .inf n => (if n then 2 ^ (f.width - 1) else 2 ^ (f.width - 1) - 1, fNV)
    | .fin n m e => roundInt f r n m e
  else
    match v with
    | .nan sig => if f.hasNan then (f.nanEnc, if sig then fNV else 0) else (0, fNV)
    | .inf n =>
      if keepsInf f om then (withSign f n f.infEnc, 0) else (overflowEnc f r om n, fOF + fNX)
    | .fin n m e => roundFloat f r om n m e

/-! ### Stochastic rounding (R100) -/

/-- R100: the 16-bit random value of an element. -/
def srValue (seed : W64) (tag scy idx : Nat) : Nat :=
  let x := seed
  let x := x ^^^ (BitVec.ofNat 64 tag * 0x9E3779B97F4A7C15#64)
  let x := x ^^^ (BitVec.ofNat 64 (scy % 2 ^ 32) * 0xC2B2AE3D27D4EB4F#64)
  let x := x ^^^ (BitVec.ofNat 64 idx * 0x165667B19E3779F9#64)
  let x := (x ^^^ (x >>> 30)) * 0xBF58476D1CE4E5B9#64
  let x := (x ^^^ (x >>> 27)) * 0x94D049BB133111EB#64
  let x := x ^^^ (x >>> 31)
  (x >>> 48).toNat

/-- What a rounding needs beside the value: the mode code, the overflow mode, and the inputs of R100. -/
structure RCtx where
  rm : Nat
  om : Bool
  seed : W64
  tag : Nat
  scy : Nat
  deriving DecidableEq, Repr

/-- The rounding of element `idx`. -/
def RCtx.rnd (c : RCtx) (idx : Nat) : Rnd :=
  rndOf c.rm (if c.rm = 4 then srValue c.seed c.tag c.scy idx else 0)

/-- Round a value into a format as element `idx`. -/
def RCtx.conv (c : RCtx) (f : Fmt) (idx : Nat) (v : Val) : Nat × Nat := convertVal f (c.rnd idx) c.om v

/-! ### MX blocks (R73) -/

/-- The greatest magnitude among values, as a value; zeros included. -/
def amaxVal : List Val → Val
  | [] => .fin false 0 0
  | v :: r =>
    let w := amaxVal r
    match v, w with
    | .fin _ m e, .fin _ n x =>
      if m = 0 then w else if n = 0 then .fin false m e
      else
        let b := min e x
        if n * 2 ^ (x - b).toNat < m * 2 ^ (e - b).toNat then .fin false m e else w
    | _, _ => w

/-- R73: encode a block into element encodings and a scale byte; element `i` rounds as element `idx0 + i`. -/
def mxEncodeBlock (f : Fmt) (c : RCtx) (idx0 : Nat) (vs : List Val) : List Nat × Nat × Nat :=
  let anyNan := vs.any (·.isNan)
  let anyInf := vs.any (·.isInf)
  let sig : Bool := vs.any (·.isSig)
  if anyNan || anyInf then
    (vs.map (fun _ => 0), 0xFF,
      orF (if anyNan || sig then fNV else 0) (if anyInf then fOF + fNX else 0))
  else
    let am := amaxVal vs
    if am.isZero then (vs.map (fun v => if f.isInt then 0 else withSign f v.neg 0), 0x7F, 0)
    else
      let x := max (-127) (min 127 (am.log2 - f.emaxElem))
      let rs := (vs.zip (List.range vs.length)).map (fun p => c.conv f (idx0 + p.2) (p.1.scale (-x)))
      (rs.map (·.1), (x + 127).toNat, rs.foldl (fun a p => orF a p.2) 0)

end Sys2Proof.Machine
end

