-- ==== Sys2Proof/Machine/Cell.lean ====
section
/-! DEFINITION. The accumulator cell and its block accumulator (R78-R99, R102, R116, R117): their state, the products that
enter them, the drain, and the cell image of spill and fill. -/

namespace Sys2Proof.Machine

/-- The special state of a cell (R79). -/
inductive Spc where
  | none | pinf | ninf | nan
  deriving DecidableEq, Repr

/-- R79: a cell. `acc` is the 146-bit accumulator whose low 120 bits are VAL and whose top 26 bits are GRD. -/
structure Cell where
  acc : BitVec 146
  win : BitVec 10
  spc : Spc
  sh : Bool
  wof : Bool
  nz : Bool
  ovp : Bool
  ovn : Bool
  acnt : BitVec 25
  deriving DecidableEq, Repr

/-- R81: the idle cell with a latched window. -/
def Cell.idle (win : BitVec 10) : Cell := ⟨0, win, .none, false, false, true, false, false, 0⟩

/-- R117: the block accumulator of a cell: open or not, its 72 bits, and what its products were. -/
structure Block where
  opened : Bool
  acc : BitVec 72
  spc : Spc
  /-- a product that was +0 -/
  pz : Bool
  /-- a product that was −0 -/
  mz : Bool
  /-- a product that was not zero -/
  nonz : Bool
  deriving DecidableEq, Repr

/-- A closed, clear block accumulator. -/
def Block.clear : Block := ⟨false, 0, .none, false, false, false⟩

/-- R92: combining special states; the flag says whether +∞ met −∞. -/
def Spc.meet : Spc → Spc → Spc × Bool
  | .none, x => (x, false)
  | x, .none => (x, false)
  | .nan, _ => (.nan, false)
  | _, .nan => (.nan, false)
  | .pinf, .pinf => (.pinf, false)
  | .ninf, .ninf => (.ninf, false)
  | _, _ => (.nan, true)

/-- The special state with its sign reversed where `b`. -/
def Spc.negIf (s : Spc) (b : Bool) : Spc :=
  if b then match s with | .pinf => .ninf | .ninf => .pinf | x => x else s

/-- R84: a product of two internal forms, before truncation. -/
inductive Prd where
  | nan (nv : Bool)
  | inf (s : Bool)
  | zero (s : Bool)
  | num (s : Bool) (mag : Nat) (e : Int)
  deriving DecidableEq, Repr

/-- R84, R96: the product of two internal forms times `2 ^ sc`. -/
def mulForms (a b : IForm) (sc : Int) : Prd :=
  let s := a.s ^^ b.s
  if a.cls = .nan ∨ b.cls = .nan then .nan false
  else if (a.cls = .inf ∧ b.cls = .zero) ∨ (a.cls = .zero ∧ b.cls = .inf) then .nan true
  else if a.cls = .inf ∨ b.cls = .inf then .inf s
  else if a.cls = .zero ∨ b.cls = .zero then .zero s
  else .num s (a.m * b.m) (a.e + b.e - 20 + sc)

/-- R84: a magnitude brought to the window: the truncated multiple of `2 ^ w`, and whether bits were lost. -/
def toWindow (mag : Nat) (e w : Int) : Nat × Bool :=
  if w ≤ e then (mag * 2 ^ (e - w).toNat, false)
  else (mag / 2 ^ (w - e).toNat, decide (mag % 2 ^ (w - e).toNat ≠ 0))

/-- Merge a special state into a cell; NV where infinities meet. (log 70, DESIGN CHOICE) -/
def Cell.meetSpc (c : Cell) (s : Spc) : Cell × Nat :=
  let r := c.spc.meet s
  ({ c with spc := r.1, nz := if s = .none then c.nz else false }, if r.2 then fNV else 0)

/-- Add `±mag × 2 ^ e`, already known non-zero, to a cell (R84, R95). -/
def Cell.addMag (c : Cell) (s : Bool) (mag : Nat) (e : Int) : Cell :=
  let t := toWindow mag e c.win.toInt
  let c := { c with sh := c.sh || t.2, nz := false }
  if 2 ^ 119 ≤ t.1 then if s then { c with ovn := true } else { c with ovp := true }
  else { c with acc := c.acc + BitVec.ofInt 146 (if s then -(t.1 : Int) else (t.1 : Int)) }

/-- R84: one product enters a cell; `n` is the negation of R116. -/
def Cell.addPrd (n : Bool) (c : Cell) (p : Prd) : Cell × Nat :=
  match p with
  | .nan nv => let r := c.meetSpc .nan; (r.1, orF r.2 (if nv then fNV else 0))
  | .inf s => c.meetSpc (if s ^^ n then .ninf else .pinf)
  | .zero s => ({ c with nz := c.nz && (s ^^ n) }, 0)
  | .num s mag e => (c.addMag (s ^^ n) mag e, 0)

/-- R80: the tile start of a cell. -/
def Cell.start (c : Cell) (ts : Bool) (win : BitVec 10) : Cell := if ts then Cell.idle win else c

/-- R83: count an accumulate; `true` where the cell takes its products. -/
def Cell.count (c : Cell) : Cell × Bool :=
  if 2 ^ 24 ≤ c.acnt.toNat then ({ c with acnt := 2 ^ 24 + 1, wof := true }, false)
  else ({ c with acnt := c.acnt + 1 }, true)

/-- R93: some product is ∞ × 0. -/
def prodsInvalid (ps : List Prd) : Bool := ps.any (fun p => p == .nan true)

/-- One accumulate of non-block products (R83, R84, R116); a cell that takes no more still shows an invalid product
(R93). -/
def Cell.accumulate (c : Cell) (n : Bool) (ps : List Prd) : Cell × Nat :=
  let r := c.count
  if r.2 then ps.foldl (fun a p => let q := a.1.addPrd n p; (q.1, orF a.2 q.2)) (r.1, 0)
  else (r.1, if prodsInvalid ps then fNV else 0)

/-- R95, R117: one product enters a block accumulator whose least significant bit is `2 ^ lo`. -/
def Block.addPrd (lo : Int) (b : Block) (p : Prd) : Block × Nat :=
  match p with
  | .nan nv => ({ b with spc := .nan }, if nv then fNV else 0)
  | .inf s => let r := b.spc.meet (if s then .ninf else .pinf); ({ b with spc := r.1 }, if r.2 then fNV else 0)
  | .zero s => (if s then { b with mz := true } else { b with pz := true }, 0)
  | .num s mag e =>
    let t := (toWindow mag e lo).1
    ({ b with acc := b.acc + BitVec.ofInt 72 (if s then -(t : Int) else (t : Int)), nonz := true }, 0)

/-- A ccy's products enter a block accumulator. -/
def Block.add (lo : Int) (b : Block) (ps : List Prd) : Block × Nat :=
  ps.foldl (fun a p => let q := a.1.addPrd lo p; (q.1, orF a.2 q.2)) (b, 0)

/-- R95, R117: the scaled block sum makes one accumulate of a cell; `sc` is S of R95. -/
def Cell.accumulateBlock (c : Cell) (n : Bool) (b : Block) (lo sc : Int) : Cell × Nat :=
  let r := c.count
  if r.2 then
    let c := r.1
    let zeroSign : Bool := -- every zero product enters as −0
      if n then !b.mz else !b.pz
    let c := { c with nz := c.nz && zeroSign && !b.nonz }
    let sum := b.acc.toInt
    let c := if sum = 0 then c else c.addMag (decide (sum < 0) ^^ n) sum.natAbs (lo + sc)
    if b.spc = .none then (c, 0) else c.meetSpc (b.spc.negIf n)
  else (r.1, 0)

/-! ### Drain (R91, R94, R98, R99) -/

/-- R91: the accumulator does not fit 120 bits. -/
def Cell.guardOver (c : Cell) : Bool :=
  let v := c.acc.toInt
  decide (v < -(2 ^ 119)) || decide (2 ^ 119 ≤ v)

/-- R91: WOF as the drain sees it. -/
def Cell.wofAtDrain (c : Cell) : Bool :=
  c.wof || c.ovp || c.ovn || c.guardOver || decide (2 ^ 24 < c.acnt.toNat)

/-- R94: the sign of a drained zero. -/
def Cell.zeroSign (c : Cell) (r : Rnd) : Bool :=
  if c.acnt = 0 then false else if c.nz then true else decide (r = .rdn)

/-- R98: the sign of an overflow. -/
def Cell.overSign (c : Cell) : Bool := if c.ovp then false else if c.ovn then true else decide (c.acc.toInt < 0)

/-- The SH and WOF flags a drain sets (R99); a cell in a special state drains with its sticky bits ignored (R92). -/
def Cell.stickyF (c : Cell) : Nat :=
  if c.spc = .none then orF (if c.sh then fSH else 0) (if c.wofAtDrain then fWOF else 0) else 0

/-- R98: the overflow of a format with a sign. -/
def overflowOf (f : Fmt) (r : Rnd) (om neg : Bool) : Nat × Nat :=
  if f.isInt then convertVal f r om (.inf neg) else (overflowEnc f r om neg, fOF + fNX)

/-- R98: a cell drained into a format: the encoding and every flag. -/
def Cell.drain (c : Cell) (f : Fmt) (r : Rnd) (om : Bool) : Nat × Nat :=
  let sf := c.stickyF
  let x : Nat × Nat :=
    match c.spc with
    | .nan => convertVal f r om (.nan false)
    | .pinf => convertVal f r om (.inf false)
    | .ninf => convertVal f r om (.inf true)
    | .none =>
      if c.wofAtDrain then
        if c.ovp && c.ovn then
          let q := convertVal f r om (.nan false)
          (q.1, orF q.2 fNV)
        else overflowOf f r om c.overSign
      else
        let v := c.acc.toInt
        if v = 0 then convertVal f r om (.fin (c.zeroSign r) 0 0)
        else convertVal f r om (.fin (decide (v < 0)) v.natAbs c.win.toInt)
  (x.1, orF x.2 sf)

/-- R99: the source a cell counts as in a drain to an MX target. -/
def Cell.mxSource (c : Cell) (r : Rnd) : Val :=
  match c.spc with
  | .nan => .nan false
  | .pinf => .inf false
  | .ninf => .inf true
  | .none =>
    if c.wofAtDrain then if c.ovp && c.ovn then .nan false else .inf c.overSign
    else ofIntExp c.acc.toInt c.win.toInt (c.zeroSign r)

/-! ### Cell images (R102) -/

/-- R102: the 24-byte image of a cell. (log 58, DEDUCED) -/
def Cell.image (c : Cell) : Bytes :=
  leBytes 24 (c.acc.toNat + c.win.toNat * 2 ^ 146 +
    (match c.spc with | .none => 0 | .pinf => 1 | .ninf => 2 | .nan => 3) * 2 ^ 156 +
    b2n c.sh * 2 ^ 158 + b2n c.wof * 2 ^ 159 + b2n c.nz * 2 ^ 160 + b2n c.ovp * 2 ^ 161 + b2n c.ovn * 2 ^ 162 +
    c.acnt.toNat * 2 ^ 163)

/-- R102: the cell an image restores. -/
def Cell.ofImage (bs : Bytes) : Cell :=
  let v := leNat bs
  { acc := BitVec.ofNat 146 v
    win := BitVec.ofNat 10 (v >>> 146)
    spc := match bits v 156 2 with | 0 => .none | 1 => .pinf | 2 => .ninf | _ => .nan
    sh := bitAt v 158
    wof := bitAt v 159
    nz := bitAt v 160
    ovp := bitAt v 161
    ovn := bitAt v 162
    acnt := BitVec.ofNat 25 (v >>> 163) }

end Sys2Proof.Machine
end

