-- ==== Sys2Proof/Machine/Cluster.lean ====
section
/-! DEFINITION. What one cluster holds beside the registers of its block: stores, cells, slots, feeders, links, landing
buffers, the strokes its pilot has decoded ahead and the effects still in its pipelines (R79, R108, R129, R149, R183,
R203, R218, R220, R233). -/

namespace Sys2Proof.Machine

/-- A decoded B slice with its scale byte (R114). -/
structure BSlice where
  forms : List IForm
  scale : Nat
  deriving DecidableEq, Repr

/-- The slice buffer of one logical lane: the current slice and the slices that wait (R114). -/
structure BLane where
  cur : Option BSlice
  nxt : List BSlice
  deriving DecidableEq, Repr

/-- A B fetch that has not yet filled its buffer (R175). `need` lists the W-store lines still to be read; `ready` is
the ccy of arrival once all are read; `held` marks a fetch whose guard has not passed (R178). -/
structure Fetch where
  cyc : Nat
  core : Nat
  row : Nat
  lane : Nat
  fmt : Fmt
  count : Nat
  pad : Bool
  /-- first bit of the slice in the W-store -/
  bitPos : Nat
  /-- byte of the scale in the W-store -/
  scaleAt : Option Nat
  need : List Nat
  ready : Option Nat
  held : Bool
  /-- the slice as read, once every line is read -/
  slice : Option BSlice
  deriving DecidableEq, Repr

/-- One word on a link or at a router input: the input port (0 north, 1 south, 2 east, 3 west, 4 local) and the
schedule cycle at which it is present there (R218). `born` is the schedule cycle in which it entered the network (R442);
`par` marks a parity error not yet found (R229). -/
structure LinkWord where
  port : Nat
  due : Nat
  born : Nat
  data : Bytes
  poison : Bool
  crc : Nat
  par : Bool
  deriving DecidableEq, Repr

/-- What an operation still in a pipeline does when it completes. -/
inductive Eff where
  /-- write `n` bits at bit position `pos` of a store -/
  | put (store pos n val : Nat)
  /-- write an FMA slot: key (core × 2 + row) × 32 + slot -/
  | slot (key : Nat) (v : BitVec 64)
  /-- set flags of a core: `org` is 7 LNE, 8 FMA or 9 PST (R137) -/
  | flags (core f org : Nat)
  /-- capture the flag word of a core to a store at a byte address (R135) -/
  | capture (core store addr : Nat)
  deriving DecidableEq, Repr

/-- An effect, the schedule cycle it lands in, and the one its stroke issued in (R139, R529). -/
structure Pending where
  due : Nat
  issued : Nat
  eff : Eff
  deriving DecidableEq, Repr

/-- The state of one loop level (CLU_PLOOP_k). -/
structure LoopSt where
  act : Bool
  start : Nat
  last : Nat
  cnt : Nat
  idx : Nat
  deriving DecidableEq, Repr

/-- A guarded unit that a stroke begins (R178): the unit that tests it (0 row A, 1 row B, 2 post), whether a failed
test counts as a backed-up drain, the tally, whether it is the B walk's, and whether its test has passed. -/
structure Guard where
  unit : Nat
  drain : Bool
  bwalk : Bool
  tally : Nat
  ok : Bool
  deriving DecidableEq, Repr

/-- A stroke the pilot has decoded and not finished issuing (R149). -/
structure Ent where
  addr : Nat
  cyc : Nat
  /-- last schedule cycle it occupies (R148) -/
  endc : Nat
  word : Nat
  /-- index of loop level 0, and the levels in their first and last iteration (R154) -/
  idx0 : Nat
  first : Nat
  last : Nat
  /-- cores of the mask MSEL names -/
  mask : Nat
  /-- binding TSEL: direction (1 subtract) and tally -/
  bind : Option (Bool × Nat)
  /-- positions of the walks the stroke uses, and those they move to (CLU_WPOS layout) -/
  pos : List (Nat × Nat)
  npos : List (Nat × Nat)
  /-- program counter and loops after the stroke -/
  npc : Nat
  nloops : List LoopSt
  guards : List Guard
  /-- fields not yet carried out: bit 0 header or control, 1 row A, 2 row B, 3 post -/
  todo : Nat
  deriving DecidableEq, Repr

/-- A bank access booked for a schedule cycle (R185). -/
structure Book where
  cyc : Nat
  store : Nat
  line : Nat
  wr : Bool
  deriving DecidableEq, Repr

/-- A hazard: a walk (0-27) or base register selector (32 + k) changed by a stroke of cycle `cyc`, for the cores of a
mask (R164). -/
structure Haz where
  what : Nat
  cyc : Nat
  mask : Nat
  deriving DecidableEq, Repr

/-- A stroke fault found and not yet taken (R181, R182). -/
structure SFault where
  cyc : Nat
  code : Nat
  field : Nat
  addr : Nat
  deriving DecidableEq, Repr

/-- The decode side of a pilot: its state 16 schedule cycles ahead of issue (R149). -/
structure Dec where
  pc : Nat
  cyc : Nat
  loops : List LoopSt
  masks : List Nat
  binds : List (Option (Bool × Nat))
  /-- walk positions -/
  pos : SMap Nat
  /-- cores in which a block is open: key row × 16 + cell -/
  opened : SMap Nat
  /-- LOCK of the LEG in force -/
  lock : Nat
  haz : List Haz
  books : List Book
  /-- results due in FMA slots: schedule cycle, row, slot and cores -/
  slots : List (Nat × Nat × Nat × Nat)
  /-- FP64 fma issued: cycle, row, cores -/
  fma64 : List (Nat × Nat × Nat)
  /-- cycles of the last MX encode and the last FP64 divide or sqrt, plus 1 -/
  mxe : Nat
  div64 : Nat
  ended : Bool
  fault : Option SFault
  deriving DecidableEq, Repr

/-- The decode side at the start of a voyage (R147). -/
def Dec.start (entry : Nat) : Dec :=
  ⟨entry, 0, List.replicate 4 ⟨false, 0, 0, 0, 0⟩, (2 ^ 64 - 1) :: List.replicate 7 0, List.replicate 8 none, [], [], 0,
    [], [], [], [], 0, 0, false, none⟩

/-- What a LEG stroke records for a replay (R168), with the values R201, R212 and R223 restore. -/
structure Snap where
  legno : Nat
  cyc : Nat
  pc : Nat
  /-- registers of the block from offset 0x2000 to 0x36FF and 0x3840 to 0x38FF -/
  regs : SMap W64
  llk : List Nat
  /-- CLU_GWCRD words of the CHAIN windows -/
  crd : List (Nat × Nat)
  deriving DecidableEq, Repr

/-- A range a zero engine still clears: store, first and one past the last granule, the granules already clear, and
the berth handle it belongs to (none for a whole-store range). -/
structure ZRange where
  store : Nat
  lo : Nat
  hi : Nat
  cleared : List Nat
  berth : Option Nat
  deriving DecidableEq, Repr

/-- One cluster. -/
structure Cluster where
  w : Mem
  a : Mem
  p : Mem
  sh : Mem
  ins : Mem
  /-- dirty granules of the P-store (R203) -/
  dirty : List Nat
  /-- sailing table entries (R220) -/
  sail : SMap (BitVec 128)
  /-- words in the links, present at this router's inputs from their cycle on -/
  links : List LinkWord
  /-- landing-buffer entries: key gateway × 512 + pointer mod 512 (R233) -/
  lbuf : SMap Bytes
  /-- cells: key ((core × 2 + row) × 8 + lane) × 16 + cell -/
  cells : SMap Cell
  blocks : SMap Block
  /-- FMA slots: key (core × 2 + row) × 32 + slot -/
  slots : SMap (BitVec 64)
  /-- slice buffers: key (core × 2 + row) × 8 + lane -/
  blanes : SMap BLane
  fetches : List Fetch
  /-- banks the fetch sequencer has used in this ccy -/
  fbanks : List Nat
  pend : List Pending
  look : List Ent
  dec : Dec
  snap : Option Snap
  /-- LEGNO of a LEG, and whether a TIDE, that issued in the current schedule cycle -/
  legNow : Option Nat
  tideNow : Bool
  /-- berth, byte and entries of the expected-count list of a TIDE stroke not yet copied (R166, R263) -/
  tideList : Option (Nat × Nat × Nat)
  /-- landing-buffer reads whose test has passed: schedule cycle and gateway (R235, R255) -/
  gwOk : List (Nat × Nat)
  zr : List ZRange
  /-- a cluster leaving its partition still clears what R199 lists -/
  leaving : Bool
  /-- lines waiting for write-back of corrected data: store, line (R189) -/
  wb : List (Nat × Nat)
  /-- ECC words in error: key store × 2^20 + word; 1 correctable, 2 uncorrectable (R188) -/
  ecc : SMap Nat
  /-- handles whose contents the manifest loads from package memory (R190) -/
  imgs : List Nat
  /-- next line the scrubber reads in each store (R191) -/
  scrub : List Nat
  /-- gangway writes that passed R210 and wait for an idle bank cycle: store, first byte, data (R186) -/
  elw : List (Nat × Nat × Bytes)
  /-- banks that elastic uses have taken in this ccy: store, bank (R186) -/
  ebanks : List (Nat × Nat)
  deriving DecidableEq, Repr

/-- A cluster that holds nothing, as after reset. (log 20, DESIGN CHOICE) -/
def Cluster.empty : Cluster :=
  { w := [], a := [], p := [], sh := [], ins := [], dirty := [], sail := [], links := [], lbuf := [], cells := [],
    blocks := [], slots := [], blanes := [], fetches := [], fbanks := [], pend := [], look := [], dec := Dec.start 0,
    snap := none, legNow := none, tideNow := false, tideList := none, gwOk := [], zr := [], leaving := false, wb := [], ecc := [],
    imgs := [], scrub := [0, 0, 0, 0, 0], elw := [], ebanks := [] }

/-- The contents of store `k`: 0 W, 1 A, 2 P, 3 shadow, 4 instruction (R214). -/
def Cluster.store (c : Cluster) (k : Nat) : Mem :=
  match k with
  | 0 => c.w | 1 => c.a | 2 => c.p | 3 => c.sh | _ => c.ins

/-- Replace the contents of store `k`. -/
def Cluster.setStore (c : Cluster) (k : Nat) (m : Mem) : Cluster :=
  match k with
  | 0 => { c with w := m } | 1 => { c with a := m } | 2 => { c with p := m } | 3 => { c with sh := m }
  | _ => { c with ins := m }

/-- The size of store `k` in bytes (R183). -/
def storeSize (k : Nat) : Nat :=
  match k with
  | 0 => 0x40000 | 1 => 0x20000 | 2 => 0x10000 | 3 => 0x10000 | _ => 0x8000

/-- The banks of store `k` (R183). -/
def storeBanks (k : Nat) : Nat :=
  match k with
  | 0 => 16 | 1 => 16 | 2 => 8 | 3 => 8 | _ => 4

/-- `n` bits at bit position `pos` of a store. -/
def Cluster.getBits (c : Cluster) (k pos n : Nat) : Nat :=
  let lo := pos / 8
  let hi := cdiv (pos + n) 8
  bits (leNat ((c.store k).bytes lo (hi - lo))) (pos % 8) n

/-- The ECC words of a byte range of a store are written anew (R188). -/
def Cluster.eccClear (c : Cluster) (k lo hi : Nat) : Cluster :=
  { c with ecc := c.ecc.filter (fun e =>
      !(e.1 / 2 ^ 20 == k && decide (lo / 8 ≤ e.1 % 2 ^ 20) && decide (8 * (e.1 % 2 ^ 20) < hi))) }

/-- Replace `n` bits at bit position `pos` of a store. -/
def Cluster.putBitsAt (c : Cluster) (k pos n v : Nat) : Cluster :=
  let lo := pos / 8
  let hi := cdiv (pos + n) 8
  let old := leNat ((c.store k).bytes lo (hi - lo))
  (c.eccClear k lo hi).setStore k ((c.store k).store lo (leBytes (hi - lo) (putBits old (pos % 8) n v)))

end Sys2Proof.Machine
end

