-- ==== Sys2Proof/Machine/Regs.lean ====
section
/-! DEFINITION. The register window: every register of the spec's register tables, its place, its fields, their
access codes (R15) and their reset values. The tables are those of R136-R142, R173, R179, R180, R214, R248, R279, R314,
R345, R346, R404, R428, R459-R461, R494, R495 and R526; reserved bits are not listed and read 0 (R16). -/

namespace Sys2Proof.Machine

/-- The access codes of R15. -/
inductive Acc where
  | ro | rw | wo | w1c | rws
  deriving DecidableEq, Repr

/-- The registers of the window, under the spec's names; an array of registers is one constructor. -/
inductive RegId where
  | CLU_CFLAG | CLU_CFSNAP | CLU_LMAP | CLU_CSTAT | CLU_WCFG | CLU_WBOX
  | CLU_WDIM0 | CLU_WDIM1 | CLU_WDIM2 | CLU_WDIM3 | CLU_WDIM4 | CLU_WPOS
  | CLU_BXA | CLU_BWA | CLU_BDA | CLU_BXB | CLU_BWB | CLU_BDB
  | CLU_BPS | CLU_BPD | CLU_PSTAT | CLU_PSCYC | CLU_PSEED | CLU_PFAULT
  | CLU_PLEGMAX | CLU_PMASK | CLU_PLOOP | CLU_PTBIND | CLU_BERTH | CLU_BCNT
  | CLU_GWCFG | CLU_GWCRD | CLU_GWADD | CLU_STSTAT | CLU_PSHDW | CLU_LLOCK
  | CLU_SERR | CLU_SCRUB | CLU_GWDROPA | CLU_GWDROPB | CHN_RCFG | CHN_SPTR
  | CHN_SAIL_IDX | CHN_SAIL_DATA_0 | CHN_SAIL_DATA_1 | CHN_SEG | CHN_HOLDT | CHN_HOLDC_0
  | CHN_HOLDC_1 | CHN_HOLDC_2 | CHN_LERR | CHN_CERR | CHN_FAULT | CHN_GWCFG
  | CHN_GWPTR | CLU_CMAP | CLU_CBAD_0 | CLU_CSITE | TDE_TCTL | TDE_TSTAT
  | TDE_TNUM | TDE_RAMP | TDE_RCERR | TDE_RCLAST | TDE_PRANGE | TDE_PTIDE
  | TDE_TAL | TDE_TCNT | TDE_TLEG | TDE_TCFG | FE_CTL | FE_STAT
  | FE_COH_BASE | FE_STAB_BASE | FE_STAB_STAT | FE_SCMD | FE_EVBASE | FE_EVSTAT
  | FE_ERRCNT | FE_SDATA | FE_RING_BASE | FE_RING_CFG | FE_RING_CPL | FE_RING_IDX
  | FE_RING_STL | FE_PCFG | FE_PSTAT | FE_PCMD | FRY_CTL | FRY_SCALE
  | FRY_FQBASE | FRY_FQIDX | FRY_RESCMD | FRY_CNT | FRY_ESTAT | FRY_ECMD
  | FRY_PMASK | FRY_PRATE | FRY_PDRAIN | CHT_CTL | CHT_INV | CHT_INVLEN
  | CHT_STAT | CHT_FCNT | CHT_ROOT | CHT_SPOOL | CHT_PMAP | LND_CTL
  | LND_STAT | LND_THR | LND_CNT | LND_RTCMD | LND_CAPP | LND_CAPL
  | LND_MOD | LND_FAIL | LND_FLCFG | LND_LERR | LND_ROUTE | PWR_CTL
  | PWR_STAT | PWR_DPWR | PWR_GRANT | PWR_THCFG | PWR_TSTAT | PWR_DIDT
  | PWR_CNT | PWR_DENERGY | PWR_OENERGY | PWR_TSENS | PWR_RAIL_LIMIT | PWR_RAIL_STAT
  | PWR_PCFG | PWR_PBUB | PWR_PENERGY | PWR_RENERGY | PWR_DROOP | CLK_REF
  | CLK_CCLK | CLK_PLL | CLK_HELM_0 | CLK_HELM_1 | CLK_RST | FLT_CTL
  | FLT_RCMD | FLT_LAST_0 | FLT_LAST_1 | FLT_CNT_0 | FLT_CNT_1 | FLT_PREC
  | MGT_STAT | MGT_CNT | MGT_MBOX | ID_IDENT | ID_SERIAL | ID_STRAP
  | ID_VER | ID_SEC | DBG_CTL | DBG_TRCFG | DBG_TRSTAT | DBG_CAP
  | DBG_LOOP | DBG_LOOPST | DBG_TRBUF
  deriving DecidableEq, Repr

/-- A field of a register: its lowest bit, its width, its access code and its reset value. -/
structure Fld where
  reg : RegId
  lo : Nat
  w : Nat
  acc : Acc
  rst : Nat
  deriving DecidableEq, Repr

/-- Where a register stands: at an offset of its cluster's block (R11) or at an absolute address, and its array
dimensions (count, stride). -/
structure RegPlace where
  cluster : Bool
  base : Nat
  dims : List (Nat × Nat)
  deriving DecidableEq, Repr

/-! ### Fields -/

namespace F.CLU_CFLAG
def PST : Fld := ⟨.CLU_CFLAG, 9, 1, .w1c, 0⟩
def FMA : Fld := ⟨.CLU_CFLAG, 8, 1, .w1c, 0⟩
def LNE : Fld := ⟨.CLU_CFLAG, 7, 1, .w1c, 0⟩
def WOF : Fld := ⟨.CLU_CFLAG, 6, 1, .w1c, 0⟩
def SH : Fld := ⟨.CLU_CFLAG, 5, 1, .w1c, 0⟩
def NV : Fld := ⟨.CLU_CFLAG, 4, 1, .w1c, 0⟩
def DZ : Fld := ⟨.CLU_CFLAG, 3, 1, .w1c, 0⟩
def OF : Fld := ⟨.CLU_CFLAG, 2, 1, .w1c, 0⟩
def UF : Fld := ⟨.CLU_CFLAG, 1, 1, .w1c, 0⟩
def NX : Fld := ⟨.CLU_CFLAG, 0, 1, .w1c, 0⟩
end F.CLU_CFLAG
namespace F.CLU_CFSNAP
def PST : Fld := ⟨.CLU_CFSNAP, 9, 1, .ro, 0⟩
def FMA : Fld := ⟨.CLU_CFSNAP, 8, 1, .ro, 0⟩
def LNE : Fld := ⟨.CLU_CFSNAP, 7, 1, .ro, 0⟩
def WOF : Fld := ⟨.CLU_CFSNAP, 6, 1, .ro, 0⟩
def SH : Fld := ⟨.CLU_CFSNAP, 5, 1, .ro, 0⟩
def NV : Fld := ⟨.CLU_CFSNAP, 4, 1, .ro, 0⟩
def DZ : Fld := ⟨.CLU_CFSNAP, 3, 1, .ro, 0⟩
def OF : Fld := ⟨.CLU_CFSNAP, 2, 1, .ro, 0⟩
def UF : Fld := ⟨.CLU_CFSNAP, 1, 1, .ro, 0⟩
def NX : Fld := ⟨.CLU_CFSNAP, 0, 1, .ro, 0⟩
end F.CLU_CFSNAP
namespace F.CLU_LMAP
def CBAD : Fld := ⟨.CLU_LMAP, 16, 1, .ro, 0⟩
def BYP_B : Fld := ⟨.CLU_LMAP, 8, 4, .rw, 15⟩
def BYP_A : Fld := ⟨.CLU_LMAP, 0, 4, .rw, 15⟩
end F.CLU_LMAP
namespace F.CLU_CSTAT
def DRYA : Fld := ⟨.CLU_CSTAT, 48, 16, .rw, 0⟩
def DRYB : Fld := ⟨.CLU_CSTAT, 32, 16, .rw, 0⟩
def DRNH : Fld := ⟨.CLU_CSTAT, 16, 16, .rw, 0⟩
def RESA : Fld := ⟨.CLU_CSTAT, 11, 5, .rw, 0⟩
def RESB : Fld := ⟨.CLU_CSTAT, 6, 5, .rw, 0⟩
def RESP : Fld := ⟨.CLU_CSTAT, 1, 5, .rw, 0⟩
end F.CLU_CSTAT
namespace F.CLU_WCFG
def BERTH : Fld := ⟨.CLU_WCFG, 57, 7, .ro, 0⟩
def SBERTH : Fld := ⟨.CLU_WCFG, 50, 7, .ro, 0⟩
def SEN : Fld := ⟨.CLU_WCFG, 49, 1, .ro, 0⟩
def GEN : Fld := ⟨.CLU_WCFG, 48, 1, .ro, 0⟩
def GUNIT : Fld := ⟨.CLU_WCFG, 44, 4, .ro, 0⟩
def GTALLY : Fld := ⟨.CLU_WCFG, 28, 16, .ro, 0⟩
def ORG : Fld := ⟨.CLU_WCFG, 0, 20, .ro, 0⟩
end F.CLU_WCFG
namespace F.CLU_WBOX
def Y0 : Fld := ⟨.CLU_WBOX, 52, 12, .ro, 0⟩
def X0 : Fld := ⟨.CLU_WBOX, 40, 12, .ro, 0⟩
def HLIM : Fld := ⟨.CLU_WBOX, 28, 12, .ro, 0⟩
def WLIM : Fld := ⟨.CLU_WBOX, 16, 12, .ro, 0⟩
def LSTEP : Fld := ⟨.CLU_WBOX, 0, 16, .ro, 0⟩
end F.CLU_WBOX
namespace F.CLU_WDIM0
def CNT : Fld := ⟨.CLU_WDIM0, 52, 12, .ro, 0⟩
def ASTEP : Fld := ⟨.CLU_WDIM0, 31, 21, .ro, 0⟩
def YSTEP : Fld := ⟨.CLU_WDIM0, 23, 8, .ro, 0⟩
def XSTEP : Fld := ⟨.CLU_WDIM0, 15, 8, .ro, 0⟩
end F.CLU_WDIM0
namespace F.CLU_WDIM1
def CNT : Fld := ⟨.CLU_WDIM1, 52, 12, .ro, 0⟩
def ASTEP : Fld := ⟨.CLU_WDIM1, 31, 21, .ro, 0⟩
def YSTEP : Fld := ⟨.CLU_WDIM1, 23, 8, .ro, 0⟩
def XSTEP : Fld := ⟨.CLU_WDIM1, 15, 8, .ro, 0⟩
end F.CLU_WDIM1
namespace F.CLU_WDIM2
def CNT : Fld := ⟨.CLU_WDIM2, 52, 12, .ro, 0⟩
def ASTEP : Fld := ⟨.CLU_WDIM2, 31, 21, .ro, 0⟩
def YSTEP : Fld := ⟨.CLU_WDIM2, 23, 8, .ro, 0⟩
def XSTEP : Fld := ⟨.CLU_WDIM2, 15, 8, .ro, 0⟩
end F.CLU_WDIM2
namespace F.CLU_WDIM3
def CNT : Fld := ⟨.CLU_WDIM3, 52, 12, .ro, 0⟩
def ASTEP : Fld := ⟨.CLU_WDIM3, 31, 21, .ro, 0⟩
def YSTEP : Fld := ⟨.CLU_WDIM3, 23, 8, .ro, 0⟩
def XSTEP : Fld := ⟨.CLU_WDIM3, 15, 8, .ro, 0⟩
end F.CLU_WDIM3
namespace F.CLU_WDIM4
def CNT : Fld := ⟨.CLU_WDIM4, 52, 12, .ro, 0⟩
def ASTEP : Fld := ⟨.CLU_WDIM4, 31, 21, .ro, 0⟩
def YSTEP : Fld := ⟨.CLU_WDIM4, 23, 8, .ro, 0⟩
def XSTEP : Fld := ⟨.CLU_WDIM4, 15, 8, .ro, 0⟩
end F.CLU_WDIM4
namespace F.CLU_WPOS
def I4 : Fld := ⟨.CLU_WPOS, 48, 12, .ro, 0⟩
def I3 : Fld := ⟨.CLU_WPOS, 36, 12, .ro, 0⟩
def I2 : Fld := ⟨.CLU_WPOS, 24, 12, .ro, 0⟩
def I1 : Fld := ⟨.CLU_WPOS, 12, 12, .ro, 0⟩
def I0 : Fld := ⟨.CLU_WPOS, 0, 12, .ro, 0⟩
end F.CLU_WPOS
namespace F.CLU_BXA
def YOFF : Fld := ⟨.CLU_BXA, 52, 12, .ro, 0⟩
def XOFF : Fld := ⟨.CLU_BXA, 40, 12, .ro, 0⟩
def OFF : Fld := ⟨.CLU_BXA, 0, 21, .ro, 0⟩
end F.CLU_BXA
namespace F.CLU_BWA
def YOFF : Fld := ⟨.CLU_BWA, 52, 12, .ro, 0⟩
def XOFF : Fld := ⟨.CLU_BWA, 40, 12, .ro, 0⟩
def OFF : Fld := ⟨.CLU_BWA, 0, 21, .ro, 0⟩
end F.CLU_BWA
namespace F.CLU_BDA
def YOFF : Fld := ⟨.CLU_BDA, 52, 12, .ro, 0⟩
def XOFF : Fld := ⟨.CLU_BDA, 40, 12, .ro, 0⟩
def OFF : Fld := ⟨.CLU_BDA, 0, 21, .ro, 0⟩
end F.CLU_BDA
namespace F.CLU_BXB
def YOFF : Fld := ⟨.CLU_BXB, 52, 12, .ro, 0⟩
def XOFF : Fld := ⟨.CLU_BXB, 40, 12, .ro, 0⟩
def OFF : Fld := ⟨.CLU_BXB, 0, 21, .ro, 0⟩
end F.CLU_BXB
namespace F.CLU_BWB
def YOFF : Fld := ⟨.CLU_BWB, 52, 12, .ro, 0⟩
def XOFF : Fld := ⟨.CLU_BWB, 40, 12, .ro, 0⟩
def OFF : Fld := ⟨.CLU_BWB, 0, 21, .ro, 0⟩
end F.CLU_BWB
namespace F.CLU_BDB
def YOFF : Fld := ⟨.CLU_BDB, 52, 12, .ro, 0⟩
def XOFF : Fld := ⟨.CLU_BDB, 40, 12, .ro, 0⟩
def OFF : Fld := ⟨.CLU_BDB, 0, 21, .ro, 0⟩
end F.CLU_BDB
namespace F.CLU_BPS
def YOFF : Fld := ⟨.CLU_BPS, 52, 12, .ro, 0⟩
def XOFF : Fld := ⟨.CLU_BPS, 40, 12, .ro, 0⟩
def OFF : Fld := ⟨.CLU_BPS, 0, 21, .ro, 0⟩
end F.CLU_BPS
namespace F.CLU_BPD
def YOFF : Fld := ⟨.CLU_BPD, 52, 12, .ro, 0⟩
def XOFF : Fld := ⟨.CLU_BPD, 40, 12, .ro, 0⟩
def OFF : Fld := ⟨.CLU_BPD, 0, 21, .ro, 0⟩
end F.CLU_BPD
namespace F.CLU_PSTAT
def STATE : Fld := ⟨.CLU_PSTAT, 32, 3, .ro, 0⟩
def ENTRY : Fld := ⟨.CLU_PSTAT, 16, 10, .ro, 0⟩
def PC : Fld := ⟨.CLU_PSTAT, 0, 10, .ro, 0⟩
end F.CLU_PSTAT
namespace F.CLU_PSCYC
def SCYC : Fld := ⟨.CLU_PSCYC, 0, 64, .ro, 0⟩
end F.CLU_PSCYC
namespace F.CLU_PSEED
def SEED : Fld := ⟨.CLU_PSEED, 0, 64, .ro, 0⟩
end F.CLU_PSEED
namespace F.CLU_PFAULT
def CODE : Fld := ⟨.CLU_PFAULT, 56, 8, .ro, 0⟩
def FIELD : Fld := ⟨.CLU_PFAULT, 54, 2, .ro, 0⟩
def ADDR : Fld := ⟨.CLU_PFAULT, 32, 10, .ro, 0⟩
def SCY : Fld := ⟨.CLU_PFAULT, 0, 32, .ro, 0⟩
end F.CLU_PFAULT
namespace F.CLU_PLEGMAX
def LUS : Fld := ⟨.CLU_PLEGMAX, 32, 9, .rw, 400⟩
def LMAX : Fld := ⟨.CLU_PLEGMAX, 0, 32, .ro, 800000⟩
end F.CLU_PLEGMAX
namespace F.CLU_PMASK
def MASK : Fld := ⟨.CLU_PMASK, 0, 64, .ro, 0⟩
end F.CLU_PMASK
namespace F.CLU_PLOOP
def ACT : Fld := ⟨.CLU_PLOOP, 63, 1, .ro, 0⟩
def START : Fld := ⟨.CLU_PLOOP, 42, 10, .ro, 0⟩
def LAST : Fld := ⟨.CLU_PLOOP, 32, 10, .ro, 0⟩
def CNT : Fld := ⟨.CLU_PLOOP, 16, 16, .ro, 0⟩
def IDX : Fld := ⟨.CLU_PLOOP, 0, 16, .ro, 0⟩
end F.CLU_PLOOP
namespace F.CLU_PTBIND
def VAL : Fld := ⟨.CLU_PTBIND, 17, 1, .ro, 0⟩
def DIR : Fld := ⟨.CLU_PTBIND, 16, 1, .ro, 0⟩
def TALLY : Fld := ⟨.CLU_PTBIND, 0, 16, .ro, 0⟩
end F.CLU_PTBIND
namespace F.CLU_BERTH
def STORE : Fld := ⟨.CLU_BERTH, 62, 2, .ro, 0⟩
def BASE : Fld := ⟨.CLU_BERTH, 50, 12, .ro, 0⟩
def LEN : Fld := ⟨.CLU_BERTH, 37, 13, .ro, 0⟩
def PART : Fld := ⟨.CLU_BERTH, 33, 4, .ro, 0⟩
def GEN : Fld := ⟨.CLU_BERTH, 17, 16, .ro, 0⟩
def VAL : Fld := ⟨.CLU_BERTH, 7, 1, .ro, 0⟩
def RES : Fld := ⟨.CLU_BERTH, 6, 1, .ro, 0⟩
def STR : Fld := ⟨.CLU_BERTH, 5, 1, .ro, 0⟩
def LLK : Fld := ⟨.CLU_BERTH, 4, 1, .ro, 0⟩
def GWO : Fld := ⟨.CLU_BERTH, 3, 1, .ro, 0⟩
def ZPND : Fld := ⟨.CLU_BERTH, 2, 1, .ro, 0⟩
def PSN : Fld := ⟨.CLU_BERTH, 1, 1, .ro, 0⟩
end F.CLU_BERTH
namespace F.CLU_BCNT
def DROP : Fld := ⟨.CLU_BCNT, 48, 16, .rw, 0⟩
def CE : Fld := ⟨.CLU_BCNT, 32, 16, .rw, 0⟩
def UE : Fld := ⟨.CLU_BCNT, 24, 8, .rw, 0⟩
def WACC : Fld := ⟨.CLU_BCNT, 0, 24, .rw, 0⟩
end F.CLU_BCNT
namespace F.CLU_GWCFG
def OPEN : Fld := ⟨.CLU_GWCFG, 63, 1, .rw, 0⟩
def CHAIN : Fld := ⟨.CLU_GWCFG, 62, 1, .rw, 0⟩
def FERRY : Fld := ⟨.CLU_GWCFG, 61, 1, .rw, 0⟩
def LAND : Fld := ⟨.CLU_GWCFG, 60, 1, .rw, 0⟩
def CRLEG : Fld := ⟨.CLU_GWCFG, 59, 1, .rw, 0⟩
def BERTH : Fld := ⟨.CLU_GWCFG, 52, 7, .rw, 0⟩
def OFF : Fld := ⟨.CLU_GWCFG, 40, 12, .rw, 0⟩
def LEN : Fld := ⟨.CLU_GWCFG, 27, 13, .rw, 0⟩
def SRCP : Fld := ⟨.CLU_GWCFG, 22, 5, .rw, 0⟩
def SRCD : Fld := ⟨.CLU_GWCFG, 16, 6, .rw, 0⟩
def SGEN : Fld := ⟨.CLU_GWCFG, 0, 16, .rw, 0⟩
end F.CLU_GWCFG
namespace F.CLU_GWCRD
def ACPT : Fld := ⟨.CLU_GWCRD, 44, 20, .rw, 0⟩
def CRINIT : Fld := ⟨.CLU_GWCRD, 20, 20, .rw, 0⟩
def CRD : Fld := ⟨.CLU_GWCRD, 0, 20, .rw, 0⟩
end F.CLU_GWCRD
namespace F.CLU_GWADD
def ADD : Fld := ⟨.CLU_GWADD, 0, 20, .wo, 0⟩
end F.CLU_GWADD
namespace F.CLU_STSTAT
def CGEN : Fld := ⟨.CLU_STSTAT, 48, 16, .ro, 0⟩
def CPART : Fld := ⟨.CLU_STSTAT, 44, 4, .ro, 0⟩
def INP : Fld := ⟨.CLU_STSTAT, 43, 1, .ro, 0⟩
def ZSH : Fld := ⟨.CLU_STSTAT, 7, 1, .ro, 0⟩
def ZP : Fld := ⟨.CLU_STSTAT, 6, 1, .ro, 0⟩
def ZA : Fld := ⟨.CLU_STSTAT, 5, 1, .ro, 0⟩
def ZW : Fld := ⟨.CLU_STSTAT, 4, 1, .ro, 0⟩
def RST : Fld := ⟨.CLU_STSTAT, 3, 1, .ro, 0⟩
def SHA : Fld := ⟨.CLU_STSTAT, 2, 1, .ro, 0⟩
end F.CLU_STSTAT
namespace F.CLU_PSHDW
def LEGNO : Fld := ⟨.CLU_PSHDW, 48, 16, .ro, 0⟩
def DIRTY : Fld := ⟨.CLU_PSHDW, 32, 11, .ro, 0⟩
def NREST : Fld := ⟨.CLU_PSHDW, 0, 16, .rw, 0⟩
end F.CLU_PSHDW
namespace F.CLU_LLOCK
def LLK : Fld := ⟨.CLU_LLOCK, 0, 64, .ro, 0⟩
end F.CLU_LLOCK
namespace F.CLU_SERR
def CE : Fld := ⟨.CLU_SERR, 48, 16, .rw, 0⟩
def UE : Fld := ⟨.CLU_SERR, 40, 8, .rw, 0⟩
def LLINE : Fld := ⟨.CLU_SERR, 24, 13, .ro, 0⟩
def SYN : Fld := ⟨.CLU_SERR, 0, 8, .ro, 0⟩
end F.CLU_SERR
namespace F.CLU_SCRUB
def EN : Fld := ⟨.CLU_SCRUB, 63, 1, .rw, 1⟩
def INTV : Fld := ⟨.CLU_SCRUB, 0, 20, .rw, 4096⟩
end F.CLU_SCRUB
namespace F.CLU_GWDROPA
def NOWIN : Fld := ⟨.CLU_GWDROPA, 48, 16, .rw, 0⟩
def SRC : Fld := ⟨.CLU_GWDROPA, 32, 16, .rw, 0⟩
def STALE : Fld := ⟨.CLU_GWDROPA, 16, 16, .rw, 0⟩
def BERTH : Fld := ⟨.CLU_GWDROPA, 0, 16, .rw, 0⟩
end F.CLU_GWDROPA
namespace F.CLU_GWDROPB
def LOCK : Fld := ⟨.CLU_GWDROPB, 48, 16, .rw, 0⟩
def CRED : Fld := ⟨.CLU_GWDROPB, 32, 16, .rw, 0⟩
def ALIGN : Fld := ⟨.CLU_GWDROPB, 16, 16, .rw, 0⟩
end F.CLU_GWDROPB
namespace F.CHN_RCFG
def RFEN : Fld := ⟨.CHN_RCFG, 11, 1, .ro, 0⟩
def EDGE : Fld := ⟨.CHN_RCFG, 4, 4, .ro, 0⟩
def PEN : Fld := ⟨.CHN_RCFG, 0, 4, .rw, 0⟩
end F.CHN_RCFG
namespace F.CHN_SPTR
def SEG : Fld := ⟨.CHN_SPTR, 61, 3, .ro, 0⟩
def ENT : Fld := ⟨.CHN_SPTR, 48, 10, .ro, 0⟩
def ITER : Fld := ⟨.CHN_SPTR, 0, 32, .ro, 0⟩
end F.CHN_SPTR
namespace F.CHN_SAIL_IDX
def IDX : Fld := ⟨.CHN_SAIL_IDX, 0, 10, .rw, 0⟩
end F.CHN_SAIL_IDX
namespace F.CHN_SAIL_DATA_0
def LO : Fld := ⟨.CHN_SAIL_DATA_0, 0, 64, .rw, 0⟩
end F.CHN_SAIL_DATA_0
namespace F.CHN_SAIL_DATA_1
def HI : Fld := ⟨.CHN_SAIL_DATA_1, 0, 64, .rw, 0⟩
end F.CHN_SAIL_DATA_1
namespace F.CHN_SEG
def VAL : Fld := ⟨.CHN_SEG, 63, 1, .rw, 0⟩
def RET : Fld := ⟨.CHN_SEG, 62, 1, .rw, 0⟩
def FIRST : Fld := ⟨.CHN_SEG, 52, 10, .rw, 0⟩
def LEN : Fld := ⟨.CHN_SEG, 41, 11, .rw, 0⟩
def REPS : Fld := ⟨.CHN_SEG, 0, 32, .rw, 0⟩
end F.CHN_SEG
namespace F.CHN_HOLDT
def TOTAL : Fld := ⟨.CHN_HOLDT, 0, 64, .rw, 0⟩
end F.CHN_HOLDT
namespace F.CHN_HOLDC_0
def BUB : Fld := ⟨.CHN_HOLDC_0, 32, 32, .rw, 0⟩
def MISS : Fld := ⟨.CHN_HOLDC_0, 0, 32, .rw, 0⟩
end F.CHN_HOLDC_0
namespace F.CHN_HOLDC_1
def DRY : Fld := ⟨.CHN_HOLDC_1, 32, 32, .rw, 0⟩
def DRN : Fld := ⟨.CHN_HOLDC_1, 0, 32, .rw, 0⟩
end F.CHN_HOLDC_1
namespace F.CHN_HOLDC_2
def TIDE : Fld := ⟨.CHN_HOLDC_2, 32, 32, .rw, 0⟩
def RMT : Fld := ⟨.CHN_HOLDC_2, 0, 32, .rw, 0⟩
end F.CHN_HOLDC_2
namespace F.CHN_LERR
def PARN : Fld := ⟨.CHN_LERR, 48, 16, .rw, 0⟩
def PARS : Fld := ⟨.CHN_LERR, 32, 16, .rw, 0⟩
def PARE : Fld := ⟨.CHN_LERR, 16, 16, .rw, 0⟩
def PARW : Fld := ⟨.CHN_LERR, 0, 16, .rw, 0⟩
end F.CHN_LERR
namespace F.CHN_CERR
def CRC : Fld := ⟨.CHN_CERR, 48, 16, .rw, 0⟩
def DEND : Fld := ⟨.CHN_CERR, 32, 16, .rw, 0⟩
def BSTALE : Fld := ⟨.CHN_CERR, 16, 16, .rw, 0⟩
end F.CHN_CERR
namespace F.CHN_FAULT
def CODE : Fld := ⟨.CHN_FAULT, 56, 8, .ro, 0⟩
def PORT : Fld := ⟨.CHN_FAULT, 52, 4, .ro, 0⟩
def ENT : Fld := ⟨.CHN_FAULT, 42, 10, .ro, 0⟩
def SCY : Fld := ⟨.CHN_FAULT, 0, 32, .ro, 0⟩
end F.CHN_FAULT
namespace F.CHN_GWCFG
def MODE : Fld := ⟨.CHN_GWCFG, 62, 2, .rw, 0⟩
def LAND : Fld := ⟨.CHN_GWCFG, 59, 3, .rw, 0⟩
def SLOT : Fld := ⟨.CHN_GWCFG, 56, 3, .rw, 0⟩
def FTALLY : Fld := ⟨.CHN_GWCFG, 16, 16, .rw, 0⟩
end F.CHN_GWCFG
namespace F.CHN_GWPTR
def WPTR : Fld := ⟨.CHN_GWPTR, 20, 10, .ro, 0⟩
def RPTR : Fld := ⟨.CHN_GWPTR, 10, 10, .ro, 0⟩
def CPTR : Fld := ⟨.CHN_GWPTR, 0, 10, .ro, 0⟩
end F.CHN_GWPTR
namespace F.CLU_CMAP
def SITE0 : Fld := ⟨.CLU_CMAP, 0, 7, .ro, 0⟩
def SITE1 : Fld := ⟨.CLU_CMAP, 8, 7, .ro, 0⟩
def SITE2 : Fld := ⟨.CLU_CMAP, 16, 7, .ro, 0⟩
def SITE3 : Fld := ⟨.CLU_CMAP, 24, 7, .ro, 0⟩
def SITE4 : Fld := ⟨.CLU_CMAP, 32, 7, .ro, 0⟩
def SITE5 : Fld := ⟨.CLU_CMAP, 40, 7, .ro, 0⟩
def SITE6 : Fld := ⟨.CLU_CMAP, 48, 7, .ro, 0⟩
def SITE7 : Fld := ⟨.CLU_CMAP, 56, 7, .ro, 0⟩
end F.CLU_CMAP
namespace F.CLU_CBAD_0
def BAD : Fld := ⟨.CLU_CBAD_0, 0, 64, .ro, 0⟩
end F.CLU_CBAD_0
namespace F.CLU_CSITE
def BAD65 : Fld := ⟨.CLU_CSITE, 57, 1, .ro, 0⟩
def BAD64 : Fld := ⟨.CLU_CSITE, 56, 1, .ro, 0⟩
def NSPARE : Fld := ⟨.CLU_CSITE, 48, 2, .ro, 2⟩
def FEN : Fld := ⟨.CLU_CSITE, 5, 1, .ro, 0⟩
def PERM : Fld := ⟨.CLU_CSITE, 4, 1, .ro, 0⟩
def FCAUSE : Fld := ⟨.CLU_CSITE, 0, 4, .ro, 0⟩
end F.CLU_CSITE
namespace F.TDE_TCTL
def TPER : Fld := ⟨.TDE_TCTL, 44, 20, .rw, 50000⟩
def TLATE : Fld := ⟨.TDE_TCTL, 32, 12, .rw, 977⟩
end F.TDE_TCTL
namespace F.TDE_TSTAT
def TERM : Fld := ⟨.TDE_TSTAT, 32, 32, .ro, 0⟩
def STATE : Fld := ⟨.TDE_TSTAT, 29, 3, .ro, 0⟩
def WAITP : Fld := ⟨.TDE_TSTAT, 0, 16, .ro, 0⟩
end F.TDE_TSTAT
namespace F.TDE_TNUM
def NUM : Fld := ⟨.TDE_TNUM, 0, 64, .ro, 0⟩
end F.TDE_TNUM
namespace F.TDE_RAMP
def STRETCH : Fld := ⟨.TDE_RAMP, 48, 16, .rw, 0⟩
def RIGN : Fld := ⟨.TDE_RAMP, 32, 16, .rw, 0⟩
def ACT : Fld := ⟨.TDE_RAMP, 12, 1, .ro, 0⟩
def WAVE : Fld := ⟨.TDE_RAMP, 8, 4, .ro, 0⟩
def SPC : Fld := ⟨.TDE_RAMP, 0, 8, .ro, 128⟩
end F.TDE_RAMP
namespace F.TDE_RCERR
def MIS : Fld := ⟨.TDE_RCERR, 48, 16, .rw, 0⟩
def DRF : Fld := ⟨.TDE_RCERR, 32, 16, .rw, 0⟩
def DUP : Fld := ⟨.TDE_RCERR, 24, 8, .rw, 0⟩
def XDROP : Fld := ⟨.TDE_RCERR, 12, 12, .rw, 0⟩
def STALE : Fld := ⟨.TDE_RCERR, 0, 12, .rw, 0⟩
end F.TDE_RCERR
namespace F.TDE_RCLAST
def TALLY : Fld := ⟨.TDE_RCLAST, 48, 16, .ro, 0⟩
def PART : Fld := ⟨.TDE_RCLAST, 44, 4, .ro, 0⟩
def KIND : Fld := ⟨.TDE_RCLAST, 42, 2, .ro, 0⟩
def TIDE : Fld := ⟨.TDE_RCLAST, 0, 32, .ro, 0⟩
end F.TDE_RCLAST
namespace F.TDE_PRANGE
def BASE : Fld := ⟨.TDE_PRANGE, 50, 14, .ro, 0⟩
def CNT : Fld := ⟨.TDE_PRANGE, 35, 15, .ro, 0⟩
end F.TDE_PRANGE
namespace F.TDE_PTIDE
def LASTW : Fld := ⟨.TDE_PTIDE, 32, 32, .ro, 0⟩
def NTIDE : Fld := ⟨.TDE_PTIDE, 0, 32, .ro, 0⟩
end F.TDE_PTIDE
namespace F.TDE_TAL
def SAT : Fld := ⟨.TDE_TAL, 63, 1, .w1c, 0⟩
def UNF : Fld := ⟨.TDE_TAL, 62, 1, .w1c, 0⟩
def MIS : Fld := ⟨.TDE_TAL, 61, 1, .w1c, 0⟩
def DRF : Fld := ⟨.TDE_TAL, 60, 1, .w1c, 0⟩
def PEND : Fld := ⟨.TDE_TAL, 24, 24, .ro, 0⟩
def VALUE : Fld := ⟨.TDE_TAL, 0, 24, .rw, 0⟩
end F.TDE_TAL
namespace F.TDE_TCNT
def PROD : Fld := ⟨.TDE_TCNT, 32, 24, .ro, 0⟩
def CONS : Fld := ⟨.TDE_TCNT, 0, 24, .ro, 0⟩
end F.TDE_TCNT
namespace F.TDE_TLEG
def SDELTA : Fld := ⟨.TDE_TLEG, 32, 32, .ro, 0⟩
def UINC : Fld := ⟨.TDE_TLEG, 0, 24, .ro, 0⟩
end F.TDE_TLEG
namespace F.TDE_TCFG
def ASG : Fld := ⟨.TDE_TCFG, 63, 1, .ro, 0⟩
def OWNER : Fld := ⟨.TDE_TCFG, 59, 4, .ro, 0⟩
def XPART : Fld := ⟨.TDE_TCFG, 54, 5, .ro, 16⟩
def XDIE : Fld := ⟨.TDE_TCFG, 48, 6, .ro, 63⟩
def START : Fld := ⟨.TDE_TCFG, 0, 24, .ro, 0⟩
end F.TDE_TCFG
namespace F.FE_CTL
def EN : Fld := ⟨.FE_CTL, 63, 1, .rw, 0⟩
def COHEN : Fld := ⟨.FE_CTL, 62, 1, .rw, 0⟩
end F.FE_CTL
namespace F.FE_STAT
def RUNP : Fld := ⟨.FE_STAT, 32, 16, .ro, 0⟩
def RDYP : Fld := ⟨.FE_STAT, 16, 16, .ro, 0⟩
def EXP : Fld := ⟨.FE_STAT, 0, 16, .ro, 0⟩
end F.FE_STAT
namespace F.FE_COH_BASE
def BASE : Fld := ⟨.FE_COH_BASE, 14, 50, .rws, 0⟩
end F.FE_COH_BASE
namespace F.FE_STAB_BASE
def BASE : Fld := ⟨.FE_STAB_BASE, 26, 38, .rws, 0⟩
end F.FE_STAB_BASE
namespace F.FE_STAB_STAT
def PIN : Fld := ⟨.FE_STAB_STAT, 48, 16, .ro, 0⟩
def MISS : Fld := ⟨.FE_STAB_STAT, 0, 32, .rw, 0⟩
end F.FE_STAB_STAT
namespace F.FE_SCMD
def BUSY : Fld := ⟨.FE_SCMD, 63, 1, .ro, 0⟩
def RES : Fld := ⟨.FE_SCMD, 60, 3, .ro, 0⟩
def OP : Fld := ⟨.FE_SCMD, 56, 4, .rw, 0⟩
def INDEX : Fld := ⟨.FE_SCMD, 0, 21, .rw, 0⟩
end F.FE_SCMD
namespace F.FE_EVBASE
def BASE : Fld := ⟨.FE_EVBASE, 12, 52, .rws, 0⟩
def LSIZE : Fld := ⟨.FE_EVBASE, 0, 5, .rws, 12⟩
end F.FE_EVBASE
namespace F.FE_EVSTAT
def WIDX : Fld := ⟨.FE_EVSTAT, 32, 32, .ro, 0⟩
def LOST : Fld := ⟨.FE_EVSTAT, 16, 16, .rw, 0⟩
def QDEPTH : Fld := ⟨.FE_EVSTAT, 0, 11, .ro, 0⟩
end F.FE_EVSTAT
namespace F.FE_ERRCNT
def REFUSED : Fld := ⟨.FE_ERRCNT, 48, 16, .rw, 0⟩
def SEREF : Fld := ⟨.FE_ERRCNT, 32, 16, .rw, 0⟩
def RINGERR : Fld := ⟨.FE_ERRCNT, 16, 16, .rw, 0⟩
end F.FE_ERRCNT
namespace F.FE_SDATA
def DATA : Fld := ⟨.FE_SDATA, 0, 64, .rw, 0⟩
end F.FE_SDATA
namespace F.FE_RING_BASE
def BASE : Fld := ⟨.FE_RING_BASE, 12, 52, .rw, 0⟩
end F.FE_RING_BASE
namespace F.FE_RING_CFG
def EN : Fld := ⟨.FE_RING_CFG, 63, 1, .rw, 0⟩
def SELF : Fld := ⟨.FE_RING_CFG, 62, 1, .rw, 0⟩
def PART : Fld := ⟨.FE_RING_CFG, 56, 4, .rw, 0⟩
def PRIO : Fld := ⟨.FE_RING_CFG, 52, 4, .rw, 0⟩
def LSIZE : Fld := ⟨.FE_RING_CFG, 43, 5, .rw, 4⟩
end F.FE_RING_CFG
namespace F.FE_RING_CPL
def BASE : Fld := ⟨.FE_RING_CPL, 12, 52, .rw, 0⟩
end F.FE_RING_CPL
namespace F.FE_RING_IDX
def HEAD : Fld := ⟨.FE_RING_IDX, 32, 32, .ro, 0⟩
def DONE : Fld := ⟨.FE_RING_IDX, 0, 32, .rw, 0⟩
end F.FE_RING_IDX
namespace F.FE_RING_STL
def STAIL : Fld := ⟨.FE_RING_STL, 32, 32, .ro, 0⟩
def ACK : Fld := ⟨.FE_RING_STL, 0, 32, .ro, 0⟩
end F.FE_RING_STL
namespace F.FE_PCFG
def SEMAX : Fld := ⟨.FE_PCFG, 56, 8, .rw, 0⟩
def SEDEPTH : Fld := ⟨.FE_PCFG, 40, 16, .rw, 0⟩
end F.FE_PCFG
namespace F.FE_PSTAT
def STATE : Fld := ⟨.FE_PSTAT, 60, 4, .ro, 0⟩
def GEN : Fld := ⟨.FE_PSTAT, 44, 16, .ro, 0⟩
def RING : Fld := ⟨.FE_PSTAT, 38, 6, .ro, 0⟩
def SEQ : Fld := ⟨.FE_PSTAT, 0, 32, .ro, 0⟩
end F.FE_PSTAT
namespace F.FE_PCMD
def OP : Fld := ⟨.FE_PCMD, 60, 4, .wo, 0⟩
end F.FE_PCMD
namespace F.FRY_CTL
def EN : Fld := ⟨.FRY_CTL, 63, 1, .rw, 0⟩
def STEAL : Fld := ⟨.FRY_CTL, 62, 1, .rw, 1⟩
def STINT : Fld := ⟨.FRY_CTL, 32, 16, .rw, 64⟩
end F.FRY_CTL
namespace F.FRY_SCALE
def SCALE : Fld := ⟨.FRY_SCALE, 0, 17, .rw, 65536⟩
end F.FRY_SCALE
namespace F.FRY_FQBASE
def BASE : Fld := ⟨.FRY_FQBASE, 12, 52, .rws, 0⟩
def LSIZE : Fld := ⟨.FRY_FQBASE, 0, 5, .rws, 8⟩
end F.FRY_FQBASE
namespace F.FRY_FQIDX
def WIDX : Fld := ⟨.FRY_FQIDX, 32, 32, .ro, 0⟩
def RIDX : Fld := ⟨.FRY_FQIDX, 0, 32, .rw, 0⟩
end F.FRY_FQIDX
namespace F.FRY_RESCMD
def BUSY : Fld := ⟨.FRY_RESCMD, 63, 1, .ro, 0⟩
def RES : Fld := ⟨.FRY_RESCMD, 60, 3, .ro, 0⟩
def OP : Fld := ⟨.FRY_RESCMD, 56, 4, .rw, 0⟩
def ENG : Fld := ⟨.FRY_RESCMD, 8, 7, .rw, 0⟩
def SLOT : Fld := ⟨.FRY_RESCMD, 0, 3, .rw, 0⟩
end F.FRY_RESCMD
namespace F.FRY_CNT
def STEALS : Fld := ⟨.FRY_CNT, 48, 16, .rw, 0⟩
def PARKS : Fld := ⟨.FRY_CNT, 32, 16, .rw, 0⟩
def PREEMPT : Fld := ⟨.FRY_CNT, 16, 16, .rw, 0⟩
def FAIL : Fld := ⟨.FRY_CNT, 0, 16, .rw, 0⟩
end F.FRY_CNT
namespace F.FRY_ESTAT
def QDEP : Fld := ⟨.FRY_ESTAT, 57, 7, .ro, 0⟩
def NPARK : Fld := ⟨.FRY_ESTAT, 53, 4, .ro, 0⟩
def APART : Fld := ⟨.FRY_ESTAT, 49, 4, .ro, 0⟩
def ACT : Fld := ⟨.FRY_ESTAT, 48, 1, .ro, 0⟩
def PSLOT : Fld := ⟨.FRY_ESTAT, 32, 8, .ro, 0⟩
def CHUNKS : Fld := ⟨.FRY_ESTAT, 0, 32, .rw, 0⟩
end F.FRY_ESTAT
namespace F.FRY_ECMD
def OP : Fld := ⟨.FRY_ECMD, 60, 4, .wo, 0⟩
end F.FRY_ECMD
namespace F.FRY_PMASK
def MASK : Fld := ⟨.FRY_PMASK, 0, 64, .rw, 0⟩
end F.FRY_PMASK
namespace F.FRY_PRATE
def PRIO : Fld := ⟨.FRY_PRATE, 62, 2, .rw, 0⟩
def RATE : Fld := ⟨.FRY_PRATE, 38, 20, .rw, 0⟩
def BURST : Fld := ⟨.FRY_PRATE, 22, 16, .rw, 0⟩
end F.FRY_PRATE
namespace F.FRY_PDRAIN
def DGEN : Fld := ⟨.FRY_PDRAIN, 48, 16, .ro, 0⟩
def ABND : Fld := ⟨.FRY_PDRAIN, 32, 16, .rw, 0⟩
end F.FRY_PDRAIN
namespace F.CHT_CTL
def EN : Fld := ⟨.CHT_CTL, 63, 1, .rw, 0⟩
end F.CHT_CTL
namespace F.CHT_INV
def BUSY : Fld := ⟨.CHT_INV, 63, 1, .ro, 0⟩
def OP : Fld := ⟨.CHT_INV, 60, 3, .rw, 0⟩
def PART : Fld := ⟨.CHT_INV, 56, 4, .rw, 0⟩
def VA : Fld := ⟨.CHT_INV, 16, 32, .rw, 0⟩
end F.CHT_INV
namespace F.CHT_INVLEN
def NPG : Fld := ⟨.CHT_INVLEN, 0, 32, .rw, 0⟩
end F.CHT_INVLEN
namespace F.CHT_STAT
def OCC : Fld := ⟨.CHT_STAT, 50, 14, .ro, 0⟩
def MISS : Fld := ⟨.CHT_STAT, 0, 32, .rw, 0⟩
end F.CHT_STAT
namespace F.CHT_FCNT
def NOTPRES : Fld := ⟨.CHT_FCNT, 48, 16, .rw, 0⟩
def PERM : Fld := ⟨.CHT_FCNT, 32, 16, .rw, 0⟩
def OTHER : Fld := ⟨.CHT_FCNT, 16, 16, .rw, 0⟩
def POOL : Fld := ⟨.CHT_FCNT, 0, 16, .rw, 0⟩
end F.CHT_FCNT
namespace F.CHT_ROOT
def VAL : Fld := ⟨.CHT_ROOT, 63, 1, .rw, 0⟩
def BASE : Fld := ⟨.CHT_ROOT, 12, 40, .rw, 0⟩
end F.CHT_ROOT
namespace F.CHT_SPOOL
def CNT : Fld := ⟨.CHT_SPOOL, 48, 16, .rw, 0⟩
def LBLK : Fld := ⟨.CHT_SPOOL, 44, 4, .rw, 0⟩
def BASE : Fld := ⟨.CHT_SPOOL, 0, 44, .rw, 0⟩
end F.CHT_SPOOL
namespace F.CHT_PMAP
def VAL : Fld := ⟨.CHT_PMAP, 63, 1, .rws, 0⟩
def LAND : Fld := ⟨.CHT_PMAP, 60, 3, .rws, 0⟩
def PROTO : Fld := ⟨.CHT_PMAP, 59, 1, .rws, 0⟩
def LIMIT : Fld := ⟨.CHT_PMAP, 36, 22, .rws, 0⟩
def BASE : Fld := ⟨.CHT_PMAP, 0, 22, .rws, 0⟩
end F.CHT_PMAP
namespace F.LND_CTL
def EN : Fld := ⟨.LND_CTL, 63, 1, .rw, 0⟩
def TOREC : Fld := ⟨.LND_CTL, 62, 1, .rws, 1⟩
def CXL : Fld := ⟨.LND_CTL, 61, 1, .rws, 1⟩
def FLREQ : Fld := ⟨.LND_CTL, 60, 1, .rws, 0⟩
def RMAX : Fld := ⟨.LND_CTL, 58, 2, .rws, 2⟩
end F.LND_CTL
namespace F.LND_STAT
def STATE : Fld := ⟨.LND_STAT, 61, 3, .ro, 0⟩
def PROTO : Fld := ⟨.LND_STAT, 60, 1, .ro, 0⟩
def RATE : Fld := ⟨.LND_STAT, 58, 2, .ro, 0⟩
def PPOS : Fld := ⟨.LND_STAT, 52, 6, .ro, 0⟩
def ACT : Fld := ⟨.LND_STAT, 48, 4, .ro, 0⟩
def HALF : Fld := ⟨.LND_STAT, 44, 4, .ro, 0⟩
def RET : Fld := ⟨.LND_STAT, 40, 4, .ro, 0⟩
def CAPH : Fld := ⟨.LND_STAT, 36, 4, .ro, 0⟩
def EPOCH : Fld := ⟨.LND_STAT, 35, 1, .ro, 0⟩
def OVRD : Fld := ⟨.LND_STAT, 34, 1, .ro, 0⟩
def VER : Fld := ⟨.LND_STAT, 26, 8, .ro, 0⟩
def CLS : Fld := ⟨.LND_STAT, 20, 6, .ro, 0⟩
def SLOTS : Fld := ⟨.LND_STAT, 16, 4, .ro, 0⟩
end F.LND_STAT
namespace F.LND_THR
def LTHR : Fld := ⟨.LND_THR, 48, 16, .rws, 16⟩
def EYEMIN : Fld := ⟨.LND_THR, 36, 12, .rws, 150⟩
def RTTMO : Fld := ⟨.LND_THR, 16, 20, .rws, 500⟩
end F.LND_THR
namespace F.LND_CNT
def RETRY : Fld := ⟨.LND_CNT, 48, 16, .rw, 0⟩
def FCHK : Fld := ⟨.LND_CNT, 32, 16, .rw, 0⟩
def TERR : Fld := ⟨.LND_CNT, 16, 16, .rw, 0⟩
def DROP : Fld := ⟨.LND_CNT, 0, 16, .rw, 0⟩
end F.LND_CNT
namespace F.LND_RTCMD
def BUSY : Fld := ⟨.LND_RTCMD, 63, 1, .ro, 0⟩
def RES : Fld := ⟨.LND_RTCMD, 60, 3, .ro, 0⟩
def OP : Fld := ⟨.LND_RTCMD, 56, 4, .rw, 0⟩
def MOD : Fld := ⟨.LND_RTCMD, 0, 2, .rw, 0⟩
end F.LND_RTCMD
namespace F.LND_CAPP
def CAP : Fld := ⟨.LND_CAPP, 0, 64, .ro, 0⟩
end F.LND_CAPP
namespace F.LND_CAPL
def CAP : Fld := ⟨.LND_CAPL, 0, 64, .ro, 0⟩
end F.LND_CAPL
namespace F.LND_MOD
def MST : Fld := ⟨.LND_MOD, 61, 3, .ro, 0⟩
def RUSED : Fld := ⟨.LND_MOD, 58, 3, .ro, 0⟩
def PMOD : Fld := ⟨.LND_MOD, 56, 2, .ro, 0⟩
def NRT : Fld := ⟨.LND_MOD, 20, 16, .rw, 0⟩
def EYE : Fld := ⟨.LND_MOD, 8, 12, .ro, 0⟩
end F.LND_MOD
namespace F.LND_FAIL
def FAIL : Fld := ⟨.LND_FAIL, 0, 64, .ro, 0⟩
end F.LND_FAIL
namespace F.LND_FLCFG
def VAL : Fld := ⟨.LND_FLCFG, 63, 1, .rw, 0⟩
def PART : Fld := ⟨.LND_FLCFG, 59, 4, .rw, 0⟩
def SELF : Fld := ⟨.LND_FLCFG, 56, 3, .rw, 0⟩
def MPOS : Fld := ⟨.LND_FLCFG, 0, 48, .rw, 0⟩
end F.LND_FLCFG
namespace F.LND_LERR
def CNT0 : Fld := ⟨.LND_LERR, 0, 16, .rw, 0⟩
def CNT1 : Fld := ⟨.LND_LERR, 16, 16, .rw, 0⟩
def CNT2 : Fld := ⟨.LND_LERR, 32, 16, .rw, 0⟩
def CNT3 : Fld := ⟨.LND_LERR, 48, 16, .rw, 0⟩
end F.LND_LERR
namespace F.LND_ROUTE
def VAL0 : Fld := ⟨.LND_ROUTE, 7, 1, .rws, 0⟩
def LAND0 : Fld := ⟨.LND_ROUTE, 0, 3, .rws, 0⟩
def VAL1 : Fld := ⟨.LND_ROUTE, 15, 1, .rws, 0⟩
def LAND1 : Fld := ⟨.LND_ROUTE, 8, 3, .rws, 0⟩
def VAL2 : Fld := ⟨.LND_ROUTE, 23, 1, .rws, 0⟩
def LAND2 : Fld := ⟨.LND_ROUTE, 16, 3, .rws, 0⟩
def VAL3 : Fld := ⟨.LND_ROUTE, 31, 1, .rws, 0⟩
def LAND3 : Fld := ⟨.LND_ROUTE, 24, 3, .rws, 0⟩
def VAL4 : Fld := ⟨.LND_ROUTE, 39, 1, .rws, 0⟩
def LAND4 : Fld := ⟨.LND_ROUTE, 32, 3, .rws, 0⟩
def VAL5 : Fld := ⟨.LND_ROUTE, 47, 1, .rws, 0⟩
def LAND5 : Fld := ⟨.LND_ROUTE, 40, 3, .rws, 0⟩
def VAL6 : Fld := ⟨.LND_ROUTE, 55, 1, .rws, 0⟩
def LAND6 : Fld := ⟨.LND_ROUTE, 48, 3, .rws, 0⟩
def VAL7 : Fld := ⟨.LND_ROUTE, 63, 1, .rws, 0⟩
def LAND7 : Fld := ⟨.LND_ROUTE, 56, 3, .rws, 0⟩
end F.LND_ROUTE
namespace F.PWR_CTL
def PENV : Fld := ⟨.PWR_CTL, 52, 12, .rws, 700⟩
def PBURST : Fld := ⟨.PWR_CTL, 40, 12, .rws, 900⟩
def QMAX : Fld := ⟨.PWR_CTL, 26, 14, .rws, 4000⟩
def QRE : Fld := ⟨.PWR_CTL, 12, 14, .rws, 1000⟩
end F.PWR_CTL
namespace F.PWR_STAT
def CAP : Fld := ⟨.PWR_STAT, 44, 20, .ro, 0⟩
def Q : Fld := ⟨.PWR_STAT, 30, 14, .ro, 0⟩
def BEN : Fld := ⟨.PWR_STAT, 29, 1, .ro, 0⟩
def BURST : Fld := ⟨.PWR_STAT, 28, 1, .ro, 0⟩
def RLIM : Fld := ⟨.PWR_STAT, 27, 1, .ro, 0⟩
def CLMP : Fld := ⟨.PWR_STAT, 26, 1, .ro, 0⟩
end F.PWR_STAT
namespace F.PWR_DPWR
def P : Fld := ⟨.PWR_DPWR, 44, 20, .ro, 0⟩
def SCAP : Fld := ⟨.PWR_DPWR, 24, 20, .ro, 0⟩
def OVER : Fld := ⟨.PWR_DPWR, 4, 20, .ro, 0⟩
end F.PWR_DPWR
namespace F.PWR_GRANT
def GRANT : Fld := ⟨.PWR_GRANT, 44, 20, .ro, 0⟩
def GTIDE : Fld := ⟨.PWR_GRANT, 12, 32, .ro, 0⟩
def MISS : Fld := ⟨.PWR_GRANT, 8, 4, .ro, 0⟩
end F.PWR_GRANT
namespace F.PWR_THCFG
def TTHR : Fld := ⟨.PWR_THCFG, 56, 8, .rws, 105⟩
def THYST : Fld := ⟨.PWR_THCFG, 48, 8, .rws, 2⟩
def TSTEP : Fld := ⟨.PWR_THCFG, 36, 12, .rws, 25⟩
def TFLOOR : Fld := ⟨.PWR_THCFG, 24, 12, .rws, 300⟩
end F.PWR_THCFG
namespace F.PWR_TSTAT
def TJ : Fld := ⟨.PWR_TSTAT, 52, 12, .ro, 0⟩
def HOT : Fld := ⟨.PWR_TSTAT, 46, 6, .ro, 0⟩
def TLVL : Fld := ⟨.PWR_TSTAT, 42, 4, .ro, 0⟩
def TRIP : Fld := ⟨.PWR_TSTAT, 41, 1, .ro, 0⟩
def TCAUSE : Fld := ⟨.PWR_TSTAT, 38, 3, .ro, 0⟩
def TSRC : Fld := ⟨.PWR_TSTAT, 32, 6, .ro, 0⟩
end F.PWR_TSTAT
namespace F.PWR_DIDT
def DDTHR : Fld := ⟨.PWR_DIDT, 56, 8, .rws, 30⟩
def DIEN : Fld := ⟨.PWR_DIDT, 55, 1, .rws, 1⟩
end F.PWR_DIDT
namespace F.PWR_CNT
def CLAMP : Fld := ⟨.PWR_CNT, 48, 16, .rw, 0⟩
def RLIMS : Fld := ⟨.PWR_CNT, 32, 16, .rw, 0⟩
def CAPSAT : Fld := ⟨.PWR_CNT, 16, 16, .rw, 0⟩
def BEXH : Fld := ⟨.PWR_CNT, 0, 16, .rw, 0⟩
end F.PWR_CNT
namespace F.PWR_DENERGY
def E : Fld := ⟨.PWR_DENERGY, 0, 64, .ro, 0⟩
end F.PWR_DENERGY
namespace F.PWR_OENERGY
def E : Fld := ⟨.PWR_OENERGY, 0, 64, .ro, 0⟩
end F.PWR_OENERGY
namespace F.PWR_TSENS
def T : Fld := ⟨.PWR_TSENS, 52, 12, .ro, 0⟩
end F.PWR_TSENS
namespace F.PWR_RAIL_LIMIT
def ILIM : Fld := ⟨.PWR_RAIL_LIMIT, 52, 12, .rws, 0⟩
def IWEAR : Fld := ⟨.PWR_RAIL_LIMIT, 40, 12, .rws, 0⟩
def ICLAMP : Fld := ⟨.PWR_RAIL_LIMIT, 28, 12, .ro, 0⟩
end F.PWR_RAIL_LIMIT
namespace F.PWR_RAIL_STAT
def I2 : Fld := ⟨.PWR_RAIL_STAT, 52, 12, .ro, 0⟩
def I20 : Fld := ⟨.PWR_RAIL_STAT, 40, 12, .ro, 0⟩
def V : Fld := ⟨.PWR_RAIL_STAT, 28, 12, .ro, 0⟩
def DR : Fld := ⟨.PWR_RAIL_STAT, 20, 8, .ro, 0⟩
def CLMP : Fld := ⟨.PWR_RAIL_STAT, 19, 1, .ro, 0⟩
def LIMEV : Fld := ⟨.PWR_RAIL_STAT, 0, 16, .rw, 0⟩
end F.PWR_RAIL_STAT
namespace F.PWR_PCFG
def PFRAC : Fld := ⟨.PWR_PCFG, 53, 11, .ro, 0⟩
def SHARE : Fld := ⟨.PWR_PCFG, 33, 20, .ro, 0⟩
def PPW : Fld := ⟨.PWR_PCFG, 13, 20, .ro, 0⟩
end F.PWR_PCFG
namespace F.PWR_PBUB
def D : Fld := ⟨.PWR_PBUB, 56, 8, .ro, 0⟩
def DCAP : Fld := ⟨.PWR_PBUB, 48, 8, .ro, 0⟩
def DRMAX : Fld := ⟨.PWR_PBUB, 40, 8, .ro, 0⟩
def HPW : Fld := ⟨.PWR_PBUB, 20, 20, .ro, 0⟩
end F.PWR_PBUB
namespace F.PWR_PENERGY
def E : Fld := ⟨.PWR_PENERGY, 0, 64, .ro, 0⟩
end F.PWR_PENERGY
namespace F.PWR_RENERGY
def E : Fld := ⟨.PWR_RENERGY, 0, 64, .ro, 0⟩
end F.PWR_RENERGY
namespace F.PWR_DROOP
def EVT : Fld := ⟨.PWR_DROOP, 48, 16, .rw, 0⟩
def MIN : Fld := ⟨.PWR_DROOP, 40, 8, .ro, 255⟩
end F.PWR_DROOP
namespace F.CLK_REF
def REFSEL : Fld := ⟨.CLK_REF, 63, 1, .rw, 0⟩
def LOCK : Fld := ⟨.CLK_REF, 62, 1, .ro, 0⟩
def HOLD : Fld := ⟨.CLK_REF, 61, 1, .ro, 0⟩
def CAND0 : Fld := ⟨.CLK_REF, 60, 1, .ro, 0⟩
def CAND1 : Fld := ⟨.CLK_REF, 59, 1, .ro, 0⟩
def DRV : Fld := ⟨.CLK_REF, 58, 1, .ro, 0⟩
def HCAND : Fld := ⟨.CLK_REF, 57, 1, .ro, 0⟩
def LOSS : Fld := ⟨.CLK_REF, 32, 16, .rw, 0⟩
end F.CLK_REF
namespace F.CLK_CCLK
def CUR : Fld := ⟨.CLK_CCLK, 42, 22, .ro, 0⟩
def NEXT : Fld := ⟨.CLK_CCLK, 20, 22, .ro, 0⟩
end F.CLK_CCLK
namespace F.CLK_PLL
def CORE : Fld := ⟨.CLK_PLL, 63, 1, .ro, 0⟩
def RING : Fld := ⟨.CLK_PLL, 62, 1, .ro, 0⟩
def MGMT : Fld := ⟨.CLK_PLL, 61, 1, .ro, 0⟩
def LAND : Fld := ⟨.CLK_PLL, 53, 8, .ro, 0⟩
end F.CLK_PLL
namespace F.CLK_HELM_0
def TERM : Fld := ⟨.CLK_HELM_0, 32, 32, .ro, 0⟩
def HMAXT : Fld := ⟨.CLK_HELM_0, 0, 32, .ro, 0⟩
end F.CLK_HELM_0
namespace F.CLK_HELM_1
def HPOS : Fld := ⟨.CLK_HELM_1, 58, 6, .ro, 63⟩
def HSTATE : Fld := ⟨.CLK_HELM_1, 56, 2, .ro, 0⟩
def CLREJ : Fld := ⟨.CLK_HELM_1, 40, 16, .rw, 0⟩
end F.CLK_HELM_1
namespace F.CLK_RST
def CAUSE : Fld := ⟨.CLK_RST, 60, 4, .ro, 1⟩
end F.CLK_RST
namespace F.FLT_CTL
def EN : Fld := ⟨.FLT_CTL, 63, 1, .rw, 1⟩
def RWD : Fld := ⟨.FLT_CTL, 48, 15, .rw, 80⟩
def RLIM : Fld := ⟨.FLT_CTL, 44, 4, .rw, 3⟩
end F.FLT_CTL
namespace F.FLT_RCMD
def BUSY : Fld := ⟨.FLT_RCMD, 63, 1, .ro, 0⟩
def RES : Fld := ⟨.FLT_RCMD, 60, 3, .ro, 0⟩
def OP : Fld := ⟨.FLT_RCMD, 56, 4, .rw, 0⟩
def PART : Fld := ⟨.FLT_RCMD, 52, 4, .rw, 0⟩
def CORE : Fld := ⟨.FLT_RCMD, 46, 6, .rw, 0⟩
def CLIDX : Fld := ⟨.FLT_RCMD, 32, 11, .rw, 0⟩
end F.FLT_RCMD
namespace F.FLT_LAST_0
def KIND : Fld := ⟨.FLT_LAST_0, 56, 8, .ro, 0⟩
def PART : Fld := ⟨.FLT_LAST_0, 52, 4, .ro, 0⟩
def CLIDX : Fld := ⟨.FLT_LAST_0, 41, 11, .ro, 0⟩
def CORE : Fld := ⟨.FLT_LAST_0, 35, 6, .ro, 0⟩
def ROW : Fld := ⟨.FLT_LAST_0, 34, 1, .ro, 0⟩
def LANE : Fld := ⟨.FLT_LAST_0, 30, 4, .ro, 0⟩
end F.FLT_LAST_0
namespace F.FLT_LAST_1
def SCY : Fld := ⟨.FLT_LAST_1, 32, 32, .ro, 0⟩
def TIDE : Fld := ⟨.FLT_LAST_1, 0, 32, .ro, 0⟩
end F.FLT_LAST_1
namespace F.FLT_CNT_0
def RESID : Fld := ⟨.FLT_CNT_0, 48, 16, .rw, 0⟩
def ECC : Fld := ⟨.FLT_CNT_0, 32, 16, .rw, 0⟩
def LINK : Fld := ⟨.FLT_CNT_0, 16, 16, .rw, 0⟩
def TALLY : Fld := ⟨.FLT_CNT_0, 0, 16, .rw, 0⟩
end F.FLT_CNT_0
namespace F.FLT_CNT_1
def REPLAY : Fld := ⟨.FLT_CNT_1, 48, 16, .rw, 0⟩
def REMAP : Fld := ⟨.FLT_CNT_1, 32, 16, .rw, 0⟩
def PERM : Fld := ⟨.FLT_CNT_1, 16, 16, .rw, 0⟩
def WDOG : Fld := ⟨.FLT_CNT_1, 0, 16, .rw, 0⟩
end F.FLT_CNT_1
namespace F.FLT_PREC
def STATE : Fld := ⟨.FLT_PREC, 61, 3, .ro, 0⟩
def KIND : Fld := ⟨.FLT_PREC, 57, 4, .ro, 0⟩
def CLIDX : Fld := ⟨.FLT_PREC, 46, 11, .ro, 0⟩
def NREP : Fld := ⟨.FLT_PREC, 32, 8, .ro, 0⟩
def ELAPSED : Fld := ⟨.FLT_PREC, 0, 32, .ro, 0⟩
end F.FLT_PREC
namespace F.MGT_STAT
def MPST : Fld := ⟨.MGT_STAT, 61, 3, .ro, 0⟩
def SLOT : Fld := ⟨.MGT_STAT, 60, 1, .ro, 0⟩
def SEALED : Fld := ⟨.MGT_STAT, 59, 1, .ro, 0⟩
def SHED : Fld := ⟨.MGT_STAT, 58, 1, .ro, 0⟩
def LOAD : Fld := ⟨.MGT_STAT, 48, 8, .ro, 0⟩
def FWVER : Fld := ⟨.MGT_STAT, 0, 32, .ro, 0⟩
end F.MGT_STAT
namespace F.MGT_CNT
def MPRST : Fld := ⟨.MGT_CNT, 48, 16, .rw, 0⟩
def DBUSY : Fld := ⟨.MGT_CNT, 32, 16, .rw, 0⟩
def DDENY : Fld := ⟨.MGT_CNT, 16, 16, .rw, 0⟩
def LOGLOST : Fld := ⟨.MGT_CNT, 0, 16, .rw, 0⟩
end F.MGT_CNT
namespace F.MGT_MBOX
def DQ : Fld := ⟨.MGT_MBOX, 56, 8, .ro, 0⟩
def RQ : Fld := ⟨.MGT_MBOX, 48, 8, .ro, 0⟩
end F.MGT_MBOX
namespace F.ID_IDENT
def MAKE : Fld := ⟨.ID_IDENT, 48, 16, .ro, 3399⟩
def PCODE : Fld := ⟨.ID_IDENT, 32, 16, .ro, 0⟩
def GRADE : Fld := ⟨.ID_IDENT, 24, 8, .ro, 0⟩
def REV : Fld := ⟨.ID_IDENT, 16, 8, .ro, 176⟩
end F.ID_IDENT
namespace F.ID_SERIAL
def SERIAL : Fld := ⟨.ID_SERIAL, 0, 64, .ro, 0⟩
end F.ID_SERIAL
namespace F.ID_STRAP
def VALID : Fld := ⟨.ID_STRAP, 63, 1, .ro, 0⟩
def POS : Fld := ⟨.ID_STRAP, 50, 6, .ro, 0⟩
def ORIENT : Fld := ⟨.ID_STRAP, 49, 1, .ro, 0⟩
def HCAND : Fld := ⟨.ID_STRAP, 48, 1, .ro, 0⟩
def RPOS : Fld := ⟨.ID_STRAP, 32, 6, .ro, 0⟩
end F.ID_STRAP
namespace F.ID_VER
def ROMVER : Fld := ⟨.ID_VER, 32, 32, .ro, 0⟩
def FWVER : Fld := ⟨.ID_VER, 0, 32, .ro, 0⟩
end F.ID_VER
namespace F.ID_SEC
def SEALED : Fld := ⟨.ID_SEC, 63, 1, .ro, 0⟩
def BOOTOK : Fld := ⟨.ID_SEC, 62, 1, .ro, 0⟩
def KEYIDX : Fld := ⟨.ID_SEC, 60, 2, .ro, 0⟩
def SVNMIN : Fld := ⟨.ID_SEC, 0, 32, .ro, 0⟩
end F.ID_SEC
namespace F.DBG_CTL
def TAPEN : Fld := ⟨.DBG_CTL, 63, 1, .rws, 1⟩
def SATEST : Fld := ⟨.DBG_CTL, 62, 1, .ro, 0⟩
def TREN : Fld := ⟨.DBG_CTL, 61, 1, .rw, 0⟩
def TMODE : Fld := ⟨.DBG_CTL, 59, 2, .rw, 0⟩
def TDST : Fld := ⟨.DBG_CTL, 53, 6, .rw, 0⟩
end F.DBG_CTL
namespace F.DBG_TRCFG
def EHOLD : Fld := ⟨.DBG_TRCFG, 63, 1, .rw, 0⟩
def ELANE : Fld := ⟨.DBG_TRCFG, 62, 1, .rw, 0⟩
def ETIDE : Fld := ⟨.DBG_TRCFG, 61, 1, .rw, 0⟩
def HPART : Fld := ⟨.DBG_TRCFG, 32, 16, .rw, 0⟩
end F.DBG_TRCFG
namespace F.DBG_TRSTAT
def DROP : Fld := ⟨.DBG_TRSTAT, 48, 16, .rw, 0⟩
def WIDX : Fld := ⟨.DBG_TRSTAT, 0, 32, .ro, 0⟩
end F.DBG_TRSTAT
namespace F.DBG_CAP
def ARM : Fld := ⟨.DBG_CAP, 63, 1, .rw, 0⟩
def CLIDX : Fld := ⟨.DBG_CAP, 52, 11, .rw, 0⟩
def CORE : Fld := ⟨.DBG_CAP, 46, 6, .rw, 0⟩
def ROW : Fld := ⟨.DBG_CAP, 45, 1, .rw, 0⟩
def LANE : Fld := ⟨.DBG_CAP, 42, 3, .rw, 0⟩
def NCAP : Fld := ⟨.DBG_CAP, 32, 10, .rw, 0⟩
def START : Fld := ⟨.DBG_CAP, 0, 32, .rw, 0⟩
end F.DBG_CAP
namespace F.DBG_LOOP
def BUSY : Fld := ⟨.DBG_LOOP, 63, 1, .ro, 0⟩
def RES : Fld := ⟨.DBG_LOOP, 60, 3, .ro, 0⟩
def OP : Fld := ⟨.DBG_LOOP, 56, 4, .rw, 0⟩
def DEPTH : Fld := ⟨.DBG_LOOP, 55, 1, .rw, 0⟩
def PAT : Fld := ⟨.DBG_LOOP, 52, 3, .rw, 3⟩
def DUR : Fld := ⟨.DBG_LOOP, 20, 20, .rw, 500⟩
end F.DBG_LOOP
namespace F.DBG_LOOPST
def REPAIR : Fld := ⟨.DBG_LOOPST, 32, 32, .ro, 0⟩
def CLEAN : Fld := ⟨.DBG_LOOPST, 0, 32, .ro, 0⟩
end F.DBG_LOOPST
namespace F.DBG_TRBUF
def DATA : Fld := ⟨.DBG_TRBUF, 0, 64, .ro, 0⟩
end F.DBG_TRBUF

/-! ### Tables -/

/-- The fields of a register; the bits no field covers are reserved (R16). -/
def regFields : RegId → List Fld
  | .CLU_CFLAG => [F.CLU_CFLAG.PST, F.CLU_CFLAG.FMA, F.CLU_CFLAG.LNE, F.CLU_CFLAG.WOF, F.CLU_CFLAG.SH, F.CLU_CFLAG.NV, F.CLU_CFLAG.DZ, F.CLU_CFLAG.OF, F.CLU_CFLAG.UF, F.CLU_CFLAG.NX]
  | .CLU_CFSNAP => [F.CLU_CFSNAP.PST, F.CLU_CFSNAP.FMA, F.CLU_CFSNAP.LNE, F.CLU_CFSNAP.WOF, F.CLU_CFSNAP.SH, F.CLU_CFSNAP.NV, F.CLU_CFSNAP.DZ, F.CLU_CFSNAP.OF, F.CLU_CFSNAP.UF, F.CLU_CFSNAP.NX]
  | .CLU_LMAP => [F.CLU_LMAP.CBAD, F.CLU_LMAP.BYP_B, F.CLU_LMAP.BYP_A]
  | .CLU_CSTAT => [F.CLU_CSTAT.DRYA, F.CLU_CSTAT.DRYB, F.CLU_CSTAT.DRNH, F.CLU_CSTAT.RESA, F.CLU_CSTAT.RESB, F.CLU_CSTAT.RESP]
  | .CLU_WCFG => [F.CLU_WCFG.BERTH, F.CLU_WCFG.SBERTH, F.CLU_WCFG.SEN, F.CLU_WCFG.GEN, F.CLU_WCFG.GUNIT, F.CLU_WCFG.GTALLY, F.CLU_WCFG.ORG]
  | .CLU_WBOX => [F.CLU_WBOX.Y0, F.CLU_WBOX.X0, F.CLU_WBOX.HLIM, F.CLU_WBOX.WLIM, F.CLU_WBOX.LSTEP]
  | .CLU_WDIM0 => [F.CLU_WDIM0.CNT, F.CLU_WDIM0.ASTEP, F.CLU_WDIM0.YSTEP, F.CLU_WDIM0.XSTEP]
  | .CLU_WDIM1 => [F.CLU_WDIM1.CNT, F.CLU_WDIM1.ASTEP, F.CLU_WDIM1.YSTEP, F.CLU_WDIM1.XSTEP]
  | .CLU_WDIM2 => [F.CLU_WDIM2.CNT, F.CLU_WDIM2.ASTEP, F.CLU_WDIM2.YSTEP, F.CLU_WDIM2.XSTEP]
  | .CLU_WDIM3 => [F.CLU_WDIM3.CNT, F.CLU_WDIM3.ASTEP, F.CLU_WDIM3.YSTEP, F.CLU_WDIM3.XSTEP]
  | .CLU_WDIM4 => [F.CLU_WDIM4.CNT, F.CLU_WDIM4.ASTEP, F.CLU_WDIM4.YSTEP, F.CLU_WDIM4.XSTEP]
  | .CLU_WPOS => [F.CLU_WPOS.I4, F.CLU_WPOS.I3, F.CLU_WPOS.I2, F.CLU_WPOS.I1, F.CLU_WPOS.I0]
  | .CLU_BXA => [F.CLU_BXA.YOFF, F.CLU_BXA.XOFF, F.CLU_BXA.OFF]
  | .CLU_BWA => [F.CLU_BWA.YOFF, F.CLU_BWA.XOFF, F.CLU_BWA.OFF]
  | .CLU_BDA => [F.CLU_BDA.YOFF, F.CLU_BDA.XOFF, F.CLU_BDA.OFF]
  | .CLU_BXB => [F.CLU_BXB.YOFF, F.CLU_BXB.XOFF, F.CLU_BXB.OFF]
  | .CLU_BWB => [F.CLU_BWB.YOFF, F.CLU_BWB.XOFF, F.CLU_BWB.OFF]
  | .CLU_BDB => [F.CLU_BDB.YOFF, F.CLU_BDB.XOFF, F.CLU_BDB.OFF]
  | .CLU_BPS => [F.CLU_BPS.YOFF, F.CLU_BPS.XOFF, F.CLU_BPS.OFF]
  | .CLU_BPD => [F.CLU_BPD.YOFF, F.CLU_BPD.XOFF, F.CLU_BPD.OFF]
  | .CLU_PSTAT => [F.CLU_PSTAT.STATE, F.CLU_PSTAT.ENTRY, F.CLU_PSTAT.PC]
  | .CLU_PSCYC => [F.CLU_PSCYC.SCYC]
  | .CLU_PSEED => [F.CLU_PSEED.SEED]
  | .CLU_PFAULT => [F.CLU_PFAULT.CODE, F.CLU_PFAULT.FIELD, F.CLU_PFAULT.ADDR, F.CLU_PFAULT.SCY]
  | .CLU_PLEGMAX => [F.CLU_PLEGMAX.LUS, F.CLU_PLEGMAX.LMAX]
  | .CLU_PMASK => [F.CLU_PMASK.MASK]
  | .CLU_PLOOP => [F.CLU_PLOOP.ACT, F.CLU_PLOOP.START, F.CLU_PLOOP.LAST, F.CLU_PLOOP.CNT, F.CLU_PLOOP.IDX]
  | .CLU_PTBIND => [F.CLU_PTBIND.VAL, F.CLU_PTBIND.DIR, F.CLU_PTBIND.TALLY]
  | .CLU_BERTH => [F.CLU_BERTH.STORE, F.CLU_BERTH.BASE, F.CLU_BERTH.LEN, F.CLU_BERTH.PART, F.CLU_BERTH.GEN, F.CLU_BERTH.VAL, F.CLU_BERTH.RES, F.CLU_BERTH.STR, F.CLU_BERTH.LLK, F.CLU_BERTH.GWO, F.CLU_BERTH.ZPND, F.CLU_BERTH.PSN]
  | .CLU_BCNT => [F.CLU_BCNT.DROP, F.CLU_BCNT.CE, F.CLU_BCNT.UE, F.CLU_BCNT.WACC]
  | .CLU_GWCFG => [F.CLU_GWCFG.OPEN, F.CLU_GWCFG.CHAIN, F.CLU_GWCFG.FERRY, F.CLU_GWCFG.LAND, F.CLU_GWCFG.CRLEG, F.CLU_GWCFG.BERTH, F.CLU_GWCFG.OFF, F.CLU_GWCFG.LEN, F.CLU_GWCFG.SRCP, F.CLU_GWCFG.SRCD, F.CLU_GWCFG.SGEN]
  | .CLU_GWCRD => [F.CLU_GWCRD.ACPT, F.CLU_GWCRD.CRINIT, F.CLU_GWCRD.CRD]
  | .CLU_GWADD => [F.CLU_GWADD.ADD]
  | .CLU_STSTAT => [F.CLU_STSTAT.CGEN, F.CLU_STSTAT.CPART, F.CLU_STSTAT.INP, F.CLU_STSTAT.ZSH, F.CLU_STSTAT.ZP, F.CLU_STSTAT.ZA, F.CLU_STSTAT.ZW, F.CLU_STSTAT.RST, F.CLU_STSTAT.SHA]
  | .CLU_PSHDW => [F.CLU_PSHDW.LEGNO, F.CLU_PSHDW.DIRTY, F.CLU_PSHDW.NREST]
  | .CLU_LLOCK => [F.CLU_LLOCK.LLK]
  | .CLU_SERR => [F.CLU_SERR.CE, F.CLU_SERR.UE, F.CLU_SERR.LLINE, F.CLU_SERR.SYN]
  | .CLU_SCRUB => [F.CLU_SCRUB.EN, F.CLU_SCRUB.INTV]
  | .CLU_GWDROPA => [F.CLU_GWDROPA.NOWIN, F.CLU_GWDROPA.SRC, F.CLU_GWDROPA.STALE, F.CLU_GWDROPA.BERTH]
  | .CLU_GWDROPB => [F.CLU_GWDROPB.LOCK, F.CLU_GWDROPB.CRED, F.CLU_GWDROPB.ALIGN]
  | .CHN_RCFG => [F.CHN_RCFG.RFEN, F.CHN_RCFG.EDGE, F.CHN_RCFG.PEN]
  | .CHN_SPTR => [F.CHN_SPTR.SEG, F.CHN_SPTR.ENT, F.CHN_SPTR.ITER]
  | .CHN_SAIL_IDX => [F.CHN_SAIL_IDX.IDX]
  | .CHN_SAIL_DATA_0 => [F.CHN_SAIL_DATA_0.LO]
  | .CHN_SAIL_DATA_1 => [F.CHN_SAIL_DATA_1.HI]
  | .CHN_SEG => [F.CHN_SEG.VAL, F.CHN_SEG.RET, F.CHN_SEG.FIRST, F.CHN_SEG.LEN, F.CHN_SEG.REPS]
  | .CHN_HOLDT => [F.CHN_HOLDT.TOTAL]
  | .CHN_HOLDC_0 => [F.CHN_HOLDC_0.BUB, F.CHN_HOLDC_0.MISS]
  | .CHN_HOLDC_1 => [F.CHN_HOLDC_1.DRY, F.CHN_HOLDC_1.DRN]
  | .CHN_HOLDC_2 => [F.CHN_HOLDC_2.TIDE, F.CHN_HOLDC_2.RMT]
  | .CHN_LERR => [F.CHN_LERR.PARN, F.CHN_LERR.PARS, F.CHN_LERR.PARE, F.CHN_LERR.PARW]
  | .CHN_CERR => [F.CHN_CERR.CRC, F.CHN_CERR.DEND, F.CHN_CERR.BSTALE]
  | .CHN_FAULT => [F.CHN_FAULT.CODE, F.CHN_FAULT.PORT, F.CHN_FAULT.ENT, F.CHN_FAULT.SCY]
  | .CHN_GWCFG => [F.CHN_GWCFG.MODE, F.CHN_GWCFG.LAND, F.CHN_GWCFG.SLOT, F.CHN_GWCFG.FTALLY]
  | .CHN_GWPTR => [F.CHN_GWPTR.WPTR, F.CHN_GWPTR.RPTR, F.CHN_GWPTR.CPTR]
  | .CLU_CMAP => [F.CLU_CMAP.SITE0, F.CLU_CMAP.SITE1, F.CLU_CMAP.SITE2, F.CLU_CMAP.SITE3, F.CLU_CMAP.SITE4, F.CLU_CMAP.SITE5, F.CLU_CMAP.SITE6, F.CLU_CMAP.SITE7]
  | .CLU_CBAD_0 => [F.CLU_CBAD_0.BAD]
  | .CLU_CSITE => [F.CLU_CSITE.BAD65, F.CLU_CSITE.BAD64, F.CLU_CSITE.NSPARE, F.CLU_CSITE.FEN, F.CLU_CSITE.PERM, F.CLU_CSITE.FCAUSE]
  | .TDE_TCTL => [F.TDE_TCTL.TPER, F.TDE_TCTL.TLATE]
  | .TDE_TSTAT => [F.TDE_TSTAT.TERM, F.TDE_TSTAT.STATE, F.TDE_TSTAT.WAITP]
  | .TDE_TNUM => [F.TDE_TNUM.NUM]
  | .TDE_RAMP => [F.TDE_RAMP.STRETCH, F.TDE_RAMP.RIGN, F.TDE_RAMP.ACT, F.TDE_RAMP.WAVE, F.TDE_RAMP.SPC]
  | .TDE_RCERR => [F.TDE_RCERR.MIS, F.TDE_RCERR.DRF, F.TDE_RCERR.DUP, F.TDE_RCERR.XDROP, F.TDE_RCERR.STALE]
  | .TDE_RCLAST => [F.TDE_RCLAST.TALLY, F.TDE_RCLAST.PART, F.TDE_RCLAST.KIND, F.TDE_RCLAST.TIDE]
  | .TDE_PRANGE => [F.TDE_PRANGE.BASE, F.TDE_PRANGE.CNT]
  | .TDE_PTIDE => [F.TDE_PTIDE.LASTW, F.TDE_PTIDE.NTIDE]
  | .TDE_TAL => [F.TDE_TAL.SAT, F.TDE_TAL.UNF, F.TDE_TAL.MIS, F.TDE_TAL.DRF, F.TDE_TAL.PEND, F.TDE_TAL.VALUE]
  | .TDE_TCNT => [F.TDE_TCNT.PROD, F.TDE_TCNT.CONS]
  | .TDE_TLEG => [F.TDE_TLEG.SDELTA, F.TDE_TLEG.UINC]
  | .TDE_TCFG => [F.TDE_TCFG.ASG, F.TDE_TCFG.OWNER, F.TDE_TCFG.XPART, F.TDE_TCFG.XDIE, F.TDE_TCFG.START]
  | .FE_CTL => [F.FE_CTL.EN, F.FE_CTL.COHEN]
  | .FE_STAT => [F.FE_STAT.RUNP, F.FE_STAT.RDYP, F.FE_STAT.EXP]
  | .FE_COH_BASE => [F.FE_COH_BASE.BASE]
  | .FE_STAB_BASE => [F.FE_STAB_BASE.BASE]
  | .FE_STAB_STAT => [F.FE_STAB_STAT.PIN, F.FE_STAB_STAT.MISS]
  | .FE_SCMD => [F.FE_SCMD.BUSY, F.FE_SCMD.RES, F.FE_SCMD.OP, F.FE_SCMD.INDEX]
  | .FE_EVBASE => [F.FE_EVBASE.BASE, F.FE_EVBASE.LSIZE]
  | .FE_EVSTAT => [F.FE_EVSTAT.WIDX, F.FE_EVSTAT.LOST, F.FE_EVSTAT.QDEPTH]
  | .FE_ERRCNT => [F.FE_ERRCNT.REFUSED, F.FE_ERRCNT.SEREF, F.FE_ERRCNT.RINGERR]
  | .FE_SDATA => [F.FE_SDATA.DATA]
  | .FE_RING_BASE => [F.FE_RING_BASE.BASE]
  | .FE_RING_CFG => [F.FE_RING_CFG.EN, F.FE_RING_CFG.SELF, F.FE_RING_CFG.PART, F.FE_RING_CFG.PRIO, F.FE_RING_CFG.LSIZE]
  | .FE_RING_CPL => [F.FE_RING_CPL.BASE]
  | .FE_RING_IDX => [F.FE_RING_IDX.HEAD, F.FE_RING_IDX.DONE]
  | .FE_RING_STL => [F.FE_RING_STL.STAIL, F.FE_RING_STL.ACK]
  | .FE_PCFG => [F.FE_PCFG.SEMAX, F.FE_PCFG.SEDEPTH]
  | .FE_PSTAT => [F.FE_PSTAT.STATE, F.FE_PSTAT.GEN, F.FE_PSTAT.RING, F.FE_PSTAT.SEQ]
  | .FE_PCMD => [F.FE_PCMD.OP]
  | .FRY_CTL => [F.FRY_CTL.EN, F.FRY_CTL.STEAL, F.FRY_CTL.STINT]
  | .FRY_SCALE => [F.FRY_SCALE.SCALE]
  | .FRY_FQBASE => [F.FRY_FQBASE.BASE, F.FRY_FQBASE.LSIZE]
  | .FRY_FQIDX => [F.FRY_FQIDX.WIDX, F.FRY_FQIDX.RIDX]
  | .FRY_RESCMD => [F.FRY_RESCMD.BUSY, F.FRY_RESCMD.RES, F.FRY_RESCMD.OP, F.FRY_RESCMD.ENG, F.FRY_RESCMD.SLOT]
  | .FRY_CNT => [F.FRY_CNT.STEALS, F.FRY_CNT.PARKS, F.FRY_CNT.PREEMPT, F.FRY_CNT.FAIL]
  | .FRY_ESTAT => [F.FRY_ESTAT.QDEP, F.FRY_ESTAT.NPARK, F.FRY_ESTAT.APART, F.FRY_ESTAT.ACT, F.FRY_ESTAT.PSLOT, F.FRY_ESTAT.CHUNKS]
  | .FRY_ECMD => [F.FRY_ECMD.OP]
  | .FRY_PMASK => [F.FRY_PMASK.MASK]
  | .FRY_PRATE => [F.FRY_PRATE.PRIO, F.FRY_PRATE.RATE, F.FRY_PRATE.BURST]
  | .FRY_PDRAIN => [F.FRY_PDRAIN.DGEN, F.FRY_PDRAIN.ABND]
  | .CHT_CTL => [F.CHT_CTL.EN]
  | .CHT_INV => [F.CHT_INV.BUSY, F.CHT_INV.OP, F.CHT_INV.PART, F.CHT_INV.VA]
  | .CHT_INVLEN => [F.CHT_INVLEN.NPG]
  | .CHT_STAT => [F.CHT_STAT.OCC, F.CHT_STAT.MISS]
  | .CHT_FCNT => [F.CHT_FCNT.NOTPRES, F.CHT_FCNT.PERM, F.CHT_FCNT.OTHER, F.CHT_FCNT.POOL]
  | .CHT_ROOT => [F.CHT_ROOT.VAL, F.CHT_ROOT.BASE]
  | .CHT_SPOOL => [F.CHT_SPOOL.CNT, F.CHT_SPOOL.LBLK, F.CHT_SPOOL.BASE]
  | .CHT_PMAP => [F.CHT_PMAP.VAL, F.CHT_PMAP.LAND, F.CHT_PMAP.PROTO, F.CHT_PMAP.LIMIT, F.CHT_PMAP.BASE]
  | .LND_CTL => [F.LND_CTL.EN, F.LND_CTL.TOREC, F.LND_CTL.CXL, F.LND_CTL.FLREQ, F.LND_CTL.RMAX]
  | .LND_STAT => [F.LND_STAT.STATE, F.LND_STAT.PROTO, F.LND_STAT.RATE, F.LND_STAT.PPOS, F.LND_STAT.ACT, F.LND_STAT.HALF, F.LND_STAT.RET, F.LND_STAT.CAPH, F.LND_STAT.EPOCH, F.LND_STAT.OVRD, F.LND_STAT.VER, F.LND_STAT.CLS, F.LND_STAT.SLOTS]
  | .LND_THR => [F.LND_THR.LTHR, F.LND_THR.EYEMIN, F.LND_THR.RTTMO]
  | .LND_CNT => [F.LND_CNT.RETRY, F.LND_CNT.FCHK, F.LND_CNT.TERR, F.LND_CNT.DROP]
  | .LND_RTCMD => [F.LND_RTCMD.BUSY, F.LND_RTCMD.RES, F.LND_RTCMD.OP, F.LND_RTCMD.MOD]
  | .LND_CAPP => [F.LND_CAPP.CAP]
  | .LND_CAPL => [F.LND_CAPL.CAP]
  | .LND_MOD => [F.LND_MOD.MST, F.LND_MOD.RUSED, F.LND_MOD.PMOD, F.LND_MOD.NRT, F.LND_MOD.EYE]
  | .LND_FAIL => [F.LND_FAIL.FAIL]
  | .LND_FLCFG => [F.LND_FLCFG.VAL, F.LND_FLCFG.PART, F.LND_FLCFG.SELF, F.LND_FLCFG.MPOS]
  | .LND_LERR => [F.LND_LERR.CNT0, F.LND_LERR.CNT1, F.LND_LERR.CNT2, F.LND_LERR.CNT3]
  | .LND_ROUTE => [F.LND_ROUTE.VAL0, F.LND_ROUTE.LAND0, F.LND_ROUTE.VAL1, F.LND_ROUTE.LAND1, F.LND_ROUTE.VAL2, F.LND_ROUTE.LAND2, F.LND_ROUTE.VAL3, F.LND_ROUTE.LAND3, F.LND_ROUTE.VAL4, F.LND_ROUTE.LAND4, F.LND_ROUTE.VAL5, F.LND_ROUTE.LAND5, F.LND_ROUTE.VAL6, F.LND_ROUTE.LAND6, F.LND_ROUTE.VAL7, F.LND_ROUTE.LAND7]
  | .PWR_CTL => [F.PWR_CTL.PENV, F.PWR_CTL.PBURST, F.PWR_CTL.QMAX, F.PWR_CTL.QRE]
  | .PWR_STAT => [F.PWR_STAT.CAP, F.PWR_STAT.Q, F.PWR_STAT.BEN, F.PWR_STAT.BURST, F.PWR_STAT.RLIM, F.PWR_STAT.CLMP]
  | .PWR_DPWR => [F.PWR_DPWR.P, F.PWR_DPWR.SCAP, F.PWR_DPWR.OVER]
  | .PWR_GRANT => [F.PWR_GRANT.GRANT, F.PWR_GRANT.GTIDE, F.PWR_GRANT.MISS]
  | .PWR_THCFG => [F.PWR_THCFG.TTHR, F.PWR_THCFG.THYST, F.PWR_THCFG.TSTEP, F.PWR_THCFG.TFLOOR]
  | .PWR_TSTAT => [F.PWR_TSTAT.TJ, F.PWR_TSTAT.HOT, F.PWR_TSTAT.TLVL, F.PWR_TSTAT.TRIP, F.PWR_TSTAT.TCAUSE, F.PWR_TSTAT.TSRC]
  | .PWR_DIDT => [F.PWR_DIDT.DDTHR, F.PWR_DIDT.DIEN]
  | .PWR_CNT => [F.PWR_CNT.CLAMP, F.PWR_CNT.RLIMS, F.PWR_CNT.CAPSAT, F.PWR_CNT.BEXH]
  | .PWR_DENERGY => [F.PWR_DENERGY.E]
  | .PWR_OENERGY => [F.PWR_OENERGY.E]
  | .PWR_TSENS => [F.PWR_TSENS.T]
  | .PWR_RAIL_LIMIT => [F.PWR_RAIL_LIMIT.ILIM, F.PWR_RAIL_LIMIT.IWEAR, F.PWR_RAIL_LIMIT.ICLAMP]
  | .PWR_RAIL_STAT => [F.PWR_RAIL_STAT.I2, F.PWR_RAIL_STAT.I20, F.PWR_RAIL_STAT.V, F.PWR_RAIL_STAT.DR, F.PWR_RAIL_STAT.CLMP, F.PWR_RAIL_STAT.LIMEV]
  | .PWR_PCFG => [F.PWR_PCFG.PFRAC, F.PWR_PCFG.SHARE, F.PWR_PCFG.PPW]
  | .PWR_PBUB => [F.PWR_PBUB.D, F.PWR_PBUB.DCAP, F.PWR_PBUB.DRMAX, F.PWR_PBUB.HPW]
  | .PWR_PENERGY => [F.PWR_PENERGY.E]
  | .PWR_RENERGY => [F.PWR_RENERGY.E]
  | .PWR_DROOP => [F.PWR_DROOP.EVT, F.PWR_DROOP.MIN]
  | .CLK_REF => [F.CLK_REF.REFSEL, F.CLK_REF.LOCK, F.CLK_REF.HOLD, F.CLK_REF.CAND0, F.CLK_REF.CAND1, F.CLK_REF.DRV, F.CLK_REF.HCAND, F.CLK_REF.LOSS]
  | .CLK_CCLK => [F.CLK_CCLK.CUR, F.CLK_CCLK.NEXT]
  | .CLK_PLL => [F.CLK_PLL.CORE, F.CLK_PLL.RING, F.CLK_PLL.MGMT, F.CLK_PLL.LAND]
  | .CLK_HELM_0 => [F.CLK_HELM_0.TERM, F.CLK_HELM_0.HMAXT]
  | .CLK_HELM_1 => [F.CLK_HELM_1.HPOS, F.CLK_HELM_1.HSTATE, F.CLK_HELM_1.CLREJ]
  | .CLK_RST => [F.CLK_RST.CAUSE]
  | .FLT_CTL => [F.FLT_CTL.EN, F.FLT_CTL.RWD, F.FLT_CTL.RLIM]
  | .FLT_RCMD => [F.FLT_RCMD.BUSY, F.FLT_RCMD.RES, F.FLT_RCMD.OP, F.FLT_RCMD.PART, F.FLT_RCMD.CORE, F.FLT_RCMD.CLIDX]
  | .FLT_LAST_0 => [F.FLT_LAST_0.KIND, F.FLT_LAST_0.PART, F.FLT_LAST_0.CLIDX, F.FLT_LAST_0.CORE, F.FLT_LAST_0.ROW, F.FLT_LAST_0.LANE]
  | .FLT_LAST_1 => [F.FLT_LAST_1.SCY, F.FLT_LAST_1.TIDE]
  | .FLT_CNT_0 => [F.FLT_CNT_0.RESID, F.FLT_CNT_0.ECC, F.FLT_CNT_0.LINK, F.FLT_CNT_0.TALLY]
  | .FLT_CNT_1 => [F.FLT_CNT_1.REPLAY, F.FLT_CNT_1.REMAP, F.FLT_CNT_1.PERM, F.FLT_CNT_1.WDOG]
  | .FLT_PREC => [F.FLT_PREC.STATE, F.FLT_PREC.KIND, F.FLT_PREC.CLIDX, F.FLT_PREC.NREP, F.FLT_PREC.ELAPSED]
  | .MGT_STAT => [F.MGT_STAT.MPST, F.MGT_STAT.SLOT, F.MGT_STAT.SEALED, F.MGT_STAT.SHED, F.MGT_STAT.LOAD, F.MGT_STAT.FWVER]
  | .MGT_CNT => [F.MGT_CNT.MPRST, F.MGT_CNT.DBUSY, F.MGT_CNT.DDENY, F.MGT_CNT.LOGLOST]
  | .MGT_MBOX => [F.MGT_MBOX.DQ, F.MGT_MBOX.RQ]
  | .ID_IDENT => [F.ID_IDENT.MAKE, F.ID_IDENT.PCODE, F.ID_IDENT.GRADE, F.ID_IDENT.REV]
  | .ID_SERIAL => [F.ID_SERIAL.SERIAL]
  | .ID_STRAP => [F.ID_STRAP.VALID, F.ID_STRAP.POS, F.ID_STRAP.ORIENT, F.ID_STRAP.HCAND, F.ID_STRAP.RPOS]
  | .ID_VER => [F.ID_VER.ROMVER, F.ID_VER.FWVER]
  | .ID_SEC => [F.ID_SEC.SEALED, F.ID_SEC.BOOTOK, F.ID_SEC.KEYIDX, F.ID_SEC.SVNMIN]
  | .DBG_CTL => [F.DBG_CTL.TAPEN, F.DBG_CTL.SATEST, F.DBG_CTL.TREN, F.DBG_CTL.TMODE, F.DBG_CTL.TDST]
  | .DBG_TRCFG => [F.DBG_TRCFG.EHOLD, F.DBG_TRCFG.ELANE, F.DBG_TRCFG.ETIDE, F.DBG_TRCFG.HPART]
  | .DBG_TRSTAT => [F.DBG_TRSTAT.DROP, F.DBG_TRSTAT.WIDX]
  | .DBG_CAP => [F.DBG_CAP.ARM, F.DBG_CAP.CLIDX, F.DBG_CAP.CORE, F.DBG_CAP.ROW, F.DBG_CAP.LANE, F.DBG_CAP.NCAP, F.DBG_CAP.START]
  | .DBG_LOOP => [F.DBG_LOOP.BUSY, F.DBG_LOOP.RES, F.DBG_LOOP.OP, F.DBG_LOOP.DEPTH, F.DBG_LOOP.PAT, F.DBG_LOOP.DUR]
  | .DBG_LOOPST => [F.DBG_LOOPST.REPAIR, F.DBG_LOOPST.CLEAN]
  | .DBG_TRBUF => [F.DBG_TRBUF.DATA]

/-- Where a register stands. -/
def regPlace : RegId → RegPlace
  | .CLU_CFLAG => ⟨true, 0x1000, [(64, 0x40)]⟩
  | .CLU_CFSNAP => ⟨true, 0x1008, [(64, 0x40)]⟩
  | .CLU_LMAP => ⟨true, 0x1010, [(64, 0x40)]⟩
  | .CLU_CSTAT => ⟨true, 0x1018, [(64, 0x40)]⟩
  | .CLU_WCFG => ⟨true, 0x3000, [(28, 0x40)]⟩
  | .CLU_WBOX => ⟨true, 0x3008, [(28, 0x40)]⟩
  | .CLU_WDIM0 => ⟨true, 0x3010, [(28, 0x40)]⟩
  | .CLU_WDIM1 => ⟨true, 0x3018, [(28, 0x40)]⟩
  | .CLU_WDIM2 => ⟨true, 0x3020, [(28, 0x40)]⟩
  | .CLU_WDIM3 => ⟨true, 0x3028, [(28, 0x40)]⟩
  | .CLU_WDIM4 => ⟨true, 0x3030, [(28, 0x40)]⟩
  | .CLU_WPOS => ⟨true, 0x3038, [(28, 0x40)]⟩
  | .CLU_BXA => ⟨true, 0x2000, [(64, 0x40)]⟩
  | .CLU_BWA => ⟨true, 0x2008, [(64, 0x40)]⟩
  | .CLU_BDA => ⟨true, 0x2010, [(64, 0x40)]⟩
  | .CLU_BXB => ⟨true, 0x2018, [(64, 0x40)]⟩
  | .CLU_BWB => ⟨true, 0x2020, [(64, 0x40)]⟩
  | .CLU_BDB => ⟨true, 0x2028, [(64, 0x40)]⟩
  | .CLU_BPS => ⟨true, 0x2030, [(64, 0x40)]⟩
  | .CLU_BPD => ⟨true, 0x2038, [(64, 0x40)]⟩
  | .CLU_PSTAT => ⟨true, 0x3800, []⟩
  | .CLU_PSCYC => ⟨true, 0x3808, []⟩
  | .CLU_PSEED => ⟨true, 0x3810, []⟩
  | .CLU_PFAULT => ⟨true, 0x3818, []⟩
  | .CLU_PLEGMAX => ⟨true, 0x3820, []⟩
  | .CLU_PMASK => ⟨true, 0x3840, [(8, 0x8)]⟩
  | .CLU_PLOOP => ⟨true, 0x3880, [(4, 0x8)]⟩
  | .CLU_PTBIND => ⟨true, 0x38c0, [(8, 0x8)]⟩
  | .CLU_BERTH => ⟨true, 0x0, [(128, 0x10)]⟩
  | .CLU_BCNT => ⟨true, 0x8, [(128, 0x10)]⟩
  | .CLU_GWCFG => ⟨true, 0x800, [(32, 0x20)]⟩
  | .CLU_GWCRD => ⟨true, 0x808, [(32, 0x20)]⟩
  | .CLU_GWADD => ⟨true, 0x810, [(32, 0x20)]⟩
  | .CLU_STSTAT => ⟨true, 0xc00, []⟩
  | .CLU_PSHDW => ⟨true, 0xc08, []⟩
  | .CLU_LLOCK => ⟨true, 0xc10, [(2, 0x8)]⟩
  | .CLU_SERR => ⟨true, 0xc20, [(5, 0x8)]⟩
  | .CLU_SCRUB => ⟨true, 0xc48, []⟩
  | .CLU_GWDROPA => ⟨true, 0xc50, []⟩
  | .CLU_GWDROPB => ⟨true, 0xc58, []⟩
  | .CHN_RCFG => ⟨true, 0xd00, []⟩
  | .CHN_SPTR => ⟨true, 0xd08, []⟩
  | .CHN_SAIL_IDX => ⟨true, 0xd10, []⟩
  | .CHN_SAIL_DATA_0 => ⟨true, 0xd18, []⟩
  | .CHN_SAIL_DATA_1 => ⟨true, 0xd20, []⟩
  | .CHN_SEG => ⟨true, 0xd40, [(8, 0x8)]⟩
  | .CHN_HOLDT => ⟨true, 0xd80, []⟩
  | .CHN_HOLDC_0 => ⟨true, 0xd88, []⟩
  | .CHN_HOLDC_1 => ⟨true, 0xd90, []⟩
  | .CHN_HOLDC_2 => ⟨true, 0xd98, []⟩
  | .CHN_LERR => ⟨true, 0xda0, []⟩
  | .CHN_CERR => ⟨true, 0xda8, []⟩
  | .CHN_FAULT => ⟨true, 0xdb0, []⟩
  | .CHN_GWCFG => ⟨true, 0xdc0, [(2, 0x10)]⟩
  | .CHN_GWPTR => ⟨true, 0xdc8, [(2, 0x10)]⟩
  | .CLU_CMAP => ⟨true, 0x3900, [(8, 0x8)]⟩
  | .CLU_CBAD_0 => ⟨true, 0x3940, []⟩
  | .CLU_CSITE => ⟨true, 0x3948, []⟩
  | .TDE_TCTL => ⟨false, 0x1400000, []⟩
  | .TDE_TSTAT => ⟨false, 0x1400008, []⟩
  | .TDE_TNUM => ⟨false, 0x1400010, []⟩
  | .TDE_RAMP => ⟨false, 0x1400018, []⟩
  | .TDE_RCERR => ⟨false, 0x1400020, []⟩
  | .TDE_RCLAST => ⟨false, 0x1400028, []⟩
  | .TDE_PRANGE => ⟨false, 0x1400080, [(16, 0x8)]⟩
  | .TDE_PTIDE => ⟨false, 0x1400100, [(16, 0x8)]⟩
  | .TDE_TAL => ⟨false, 0x1500000, [(16384, 0x20)]⟩
  | .TDE_TCNT => ⟨false, 0x1500008, [(16384, 0x20)]⟩
  | .TDE_TLEG => ⟨false, 0x1500010, [(16384, 0x20)]⟩
  | .TDE_TCFG => ⟨false, 0x1500018, [(16384, 0x20)]⟩
  | .FE_CTL => ⟨false, 0x200000, []⟩
  | .FE_STAT => ⟨false, 0x200008, []⟩
  | .FE_COH_BASE => ⟨false, 0x200010, []⟩
  | .FE_STAB_BASE => ⟨false, 0x200018, []⟩
  | .FE_STAB_STAT => ⟨false, 0x200020, []⟩
  | .FE_SCMD => ⟨false, 0x200028, []⟩
  | .FE_EVBASE => ⟨false, 0x200050, []⟩
  | .FE_EVSTAT => ⟨false, 0x200058, []⟩
  | .FE_ERRCNT => ⟨false, 0x200060, []⟩
  | .FE_SDATA => ⟨false, 0x200030, [(4, 0x8)]⟩
  | .FE_RING_BASE => ⟨false, 0x201000, [(64, 0x20)]⟩
  | .FE_RING_CFG => ⟨false, 0x201008, [(64, 0x20)]⟩
  | .FE_RING_CPL => ⟨false, 0x201010, [(64, 0x20)]⟩
  | .FE_RING_IDX => ⟨false, 0x201018, [(64, 0x20)]⟩
  | .FE_RING_STL => ⟨false, 0x201800, [(64, 0x8)]⟩
  | .FE_PCFG => ⟨false, 0x202000, [(16, 0x20)]⟩
  | .FE_PSTAT => ⟨false, 0x202008, [(16, 0x20)]⟩
  | .FE_PCMD => ⟨false, 0x202010, [(16, 0x20)]⟩
  | .FRY_CTL => ⟨false, 0x400000, []⟩
  | .FRY_SCALE => ⟨false, 0x400008, []⟩
  | .FRY_FQBASE => ⟨false, 0x400010, []⟩
  | .FRY_FQIDX => ⟨false, 0x400018, []⟩
  | .FRY_RESCMD => ⟨false, 0x400020, []⟩
  | .FRY_CNT => ⟨false, 0x400028, []⟩
  | .FRY_ESTAT => ⟨false, 0x400100, [(64, 0x10)]⟩
  | .FRY_ECMD => ⟨false, 0x400108, [(64, 0x10)]⟩
  | .FRY_PMASK => ⟨false, 0x401000, [(16, 0x20)]⟩
  | .FRY_PRATE => ⟨false, 0x401008, [(16, 0x20)]⟩
  | .FRY_PDRAIN => ⟨false, 0x401010, [(16, 0x20)]⟩
  | .CHT_CTL => ⟨false, 0x600000, []⟩
  | .CHT_INV => ⟨false, 0x600008, []⟩
  | .CHT_INVLEN => ⟨false, 0x600010, []⟩
  | .CHT_STAT => ⟨false, 0x600018, []⟩
  | .CHT_FCNT => ⟨false, 0x600020, []⟩
  | .CHT_ROOT => ⟨false, 0x600100, [(16, 0x10)]⟩
  | .CHT_SPOOL => ⟨false, 0x600108, [(16, 0x10)]⟩
  | .CHT_PMAP => ⟨false, 0x600200, [(16, 0x8)]⟩
  | .LND_CTL => ⟨false, 0x800000, [(8, 0x10000)]⟩
  | .LND_STAT => ⟨false, 0x800008, [(8, 0x10000)]⟩
  | .LND_THR => ⟨false, 0x800010, [(8, 0x10000)]⟩
  | .LND_CNT => ⟨false, 0x800018, [(8, 0x10000)]⟩
  | .LND_RTCMD => ⟨false, 0x800020, [(8, 0x10000)]⟩
  | .LND_CAPP => ⟨false, 0x800040, [(8, 0x10000), (4, 0x8)]⟩
  | .LND_CAPL => ⟨false, 0x800060, [(8, 0x10000), (4, 0x8)]⟩
  | .LND_MOD => ⟨false, 0x800080, [(8, 0x10000), (4, 0x10)]⟩
  | .LND_FAIL => ⟨false, 0x800088, [(8, 0x10000), (4, 0x10)]⟩
  | .LND_FLCFG => ⟨false, 0x800100, [(8, 0x10000), (2, 0x8)]⟩
  | .LND_LERR => ⟨false, 0x800200, [(8, 0x10000), (64, 0x8)]⟩
  | .LND_ROUTE => ⟨false, 0x880000, [(8, 0x8)]⟩
  | .PWR_CTL => ⟨false, 0x1000000, []⟩
  | .PWR_STAT => ⟨false, 0x1000008, []⟩
  | .PWR_DPWR => ⟨false, 0x1000010, []⟩
  | .PWR_GRANT => ⟨false, 0x1000018, []⟩
  | .PWR_THCFG => ⟨false, 0x1000020, []⟩
  | .PWR_TSTAT => ⟨false, 0x1000028, []⟩
  | .PWR_DIDT => ⟨false, 0x1000030, []⟩
  | .PWR_CNT => ⟨false, 0x1000038, []⟩
  | .PWR_DENERGY => ⟨false, 0x1000040, []⟩
  | .PWR_OENERGY => ⟨false, 0x1000048, []⟩
  | .PWR_TSENS => ⟨false, 0x1000100, [(64, 0x8)]⟩
  | .PWR_RAIL_LIMIT => ⟨false, 0x1000400, [(36, 0x10)]⟩
  | .PWR_RAIL_STAT => ⟨false, 0x1000408, [(36, 0x10)]⟩
  | .PWR_PCFG => ⟨false, 0x1000800, [(16, 0x20)]⟩
  | .PWR_PBUB => ⟨false, 0x1000808, [(16, 0x20)]⟩
  | .PWR_PENERGY => ⟨false, 0x1000810, [(16, 0x20)]⟩
  | .PWR_RENERGY => ⟨false, 0x1000a00, [(64, 0x8)]⟩
  | .PWR_DROOP => ⟨false, 0x1000c00, [(25, 0x8)]⟩
  | .CLK_REF => ⟨false, 0x1200000, []⟩
  | .CLK_CCLK => ⟨false, 0x1200008, []⟩
  | .CLK_PLL => ⟨false, 0x1200010, []⟩
  | .CLK_HELM_0 => ⟨false, 0x1200018, []⟩
  | .CLK_HELM_1 => ⟨false, 0x1200020, []⟩
  | .CLK_RST => ⟨false, 0x1200028, []⟩
  | .FLT_CTL => ⟨false, 0x1800000, []⟩
  | .FLT_RCMD => ⟨false, 0x1800008, []⟩
  | .FLT_LAST_0 => ⟨false, 0x1800010, []⟩
  | .FLT_LAST_1 => ⟨false, 0x1800018, []⟩
  | .FLT_CNT_0 => ⟨false, 0x1800020, []⟩
  | .FLT_CNT_1 => ⟨false, 0x1800028, []⟩
  | .FLT_PREC => ⟨false, 0x1800100, [(16, 0x8)]⟩
  | .MGT_STAT => ⟨false, 0x100000, []⟩
  | .MGT_CNT => ⟨false, 0x100008, []⟩
  | .MGT_MBOX => ⟨false, 0x100010, []⟩
  | .ID_IDENT => ⟨false, 0x0, []⟩
  | .ID_SERIAL => ⟨false, 0x8, []⟩
  | .ID_STRAP => ⟨false, 0x10, []⟩
  | .ID_VER => ⟨false, 0x18, []⟩
  | .ID_SEC => ⟨false, 0x20, []⟩
  | .DBG_CTL => ⟨false, 0x3c00000, []⟩
  | .DBG_TRCFG => ⟨false, 0x3c00008, []⟩
  | .DBG_TRSTAT => ⟨false, 0x3c00010, []⟩
  | .DBG_CAP => ⟨false, 0x3c00018, []⟩
  | .DBG_LOOP => ⟨false, 0x3c00020, []⟩
  | .DBG_LOOPST => ⟨false, 0x3c00028, []⟩
  | .DBG_TRBUF => ⟨false, 0x3c10000, [(8192, 0x8)]⟩

/-- The registers of the cluster blocks. -/
def clusterRegs : List RegId :=
  [.CLU_CFLAG, .CLU_CFSNAP, .CLU_LMAP, .CLU_CSTAT, .CLU_WCFG, .CLU_WBOX, .CLU_WDIM0, .CLU_WDIM1, .CLU_WDIM2, .CLU_WDIM3, .CLU_WDIM4, .CLU_WPOS, .CLU_BXA, .CLU_BWA, .CLU_BDA, .CLU_BXB, .CLU_BWB, .CLU_BDB, .CLU_BPS, .CLU_BPD, .CLU_PSTAT, .CLU_PSCYC, .CLU_PSEED, .CLU_PFAULT, .CLU_PLEGMAX, .CLU_PMASK, .CLU_PLOOP, .CLU_PTBIND, .CLU_BERTH, .CLU_BCNT, .CLU_GWCFG, .CLU_GWCRD, .CLU_GWADD, .CLU_STSTAT, .CLU_PSHDW, .CLU_LLOCK, .CLU_SERR, .CLU_SCRUB, .CLU_GWDROPA, .CLU_GWDROPB, .CHN_RCFG, .CHN_SPTR, .CHN_SAIL_IDX, .CHN_SAIL_DATA_0, .CHN_SAIL_DATA_1, .CHN_SEG, .CHN_HOLDT, .CHN_HOLDC_0, .CHN_HOLDC_1, .CHN_HOLDC_2, .CHN_LERR, .CHN_CERR, .CHN_FAULT, .CHN_GWCFG, .CHN_GWPTR, .CLU_CMAP, .CLU_CBAD_0, .CLU_CSITE]

/-- The registers of the other blocks. -/
def blockRegs : List RegId :=
  [.TDE_TCTL, .TDE_TSTAT, .TDE_TNUM, .TDE_RAMP, .TDE_RCERR, .TDE_RCLAST, .TDE_PRANGE, .TDE_PTIDE, .TDE_TAL, .TDE_TCNT, .TDE_TLEG, .TDE_TCFG, .FE_CTL, .FE_STAT, .FE_COH_BASE, .FE_STAB_BASE, .FE_STAB_STAT, .FE_SCMD, .FE_EVBASE, .FE_EVSTAT, .FE_ERRCNT, .FE_SDATA, .FE_RING_BASE, .FE_RING_CFG, .FE_RING_CPL, .FE_RING_IDX, .FE_RING_STL, .FE_PCFG, .FE_PSTAT, .FE_PCMD, .FRY_CTL, .FRY_SCALE, .FRY_FQBASE, .FRY_FQIDX, .FRY_RESCMD, .FRY_CNT, .FRY_ESTAT, .FRY_ECMD, .FRY_PMASK, .FRY_PRATE, .FRY_PDRAIN, .CHT_CTL, .CHT_INV, .CHT_INVLEN, .CHT_STAT, .CHT_FCNT, .CHT_ROOT, .CHT_SPOOL, .CHT_PMAP, .LND_CTL, .LND_STAT, .LND_THR, .LND_CNT, .LND_RTCMD, .LND_CAPP, .LND_CAPL, .LND_MOD, .LND_FAIL, .LND_FLCFG, .LND_LERR, .LND_ROUTE, .PWR_CTL, .PWR_STAT, .PWR_DPWR, .PWR_GRANT, .PWR_THCFG, .PWR_TSTAT, .PWR_DIDT, .PWR_CNT, .PWR_DENERGY, .PWR_OENERGY, .PWR_TSENS, .PWR_RAIL_LIMIT, .PWR_RAIL_STAT, .PWR_PCFG, .PWR_PBUB, .PWR_PENERGY, .PWR_RENERGY, .PWR_DROOP, .CLK_REF, .CLK_CCLK, .CLK_PLL, .CLK_HELM_0, .CLK_HELM_1, .CLK_RST, .FLT_CTL, .FLT_RCMD, .FLT_LAST_0, .FLT_LAST_1, .FLT_CNT_0, .FLT_CNT_1, .FLT_PREC, .MGT_STAT, .MGT_CNT, .MGT_MBOX, .ID_IDENT, .ID_SERIAL, .ID_STRAP, .ID_VER, .ID_SEC, .DBG_CTL, .DBG_TRCFG, .DBG_TRSTAT, .DBG_CAP, .DBG_LOOP, .DBG_LOOPST, .DBG_TRBUF]

/-- The address of a register: for a cluster register the first index is the cluster index (R11). -/
def regAddr (r : RegId) (idx : List Nat) : Nat :=
  let p := regPlace r
  let rest := fun (ix : List Nat) => p.base + ((p.dims.zip ix).map (fun d => d.1.2 * d.2)).foldl (· + ·) 0
  if p.cluster then 0x02000000 + listGet 0 idx 0 * 0x4000 + rest (idx.drop 1) else rest idx

/-- Decode an offset against array dimensions. -/
def dimDecode : List (Nat × Nat) → Nat → Option (List Nat)
  | [], o => if o = 0 then some [] else none
  | (c, s) :: r, o => if o / s < c then (dimDecode r (o % s)).map (o / s :: ·) else none

/-- The first register of a list that stands at offset `o`. -/
def findReg : List RegId → Nat → Option (RegId × List Nat)
  | [], _ => none
  | r :: rs, o =>
    let p := regPlace r
    if p.base ≤ o then
      match dimDecode p.dims (o - p.base) with
      | some ix => some (r, ix)
      | none => findReg rs o
    else findReg rs o

/-- The block ranges of R528 other than cluster space. -/
def blockRanges : List (Nat × Nat) :=
  [(0x00000000, 0x00100000), (0x00100000, 0x00200000), (0x00200000, 0x00300000), (0x00400000, 0x00600000),
   (0x00600000, 0x00800000), (0x00800000, 0x00890000), (0x01000000, 0x01200000), (0x01200000, 0x01400000),
   (0x01400000, 0x01800000), (0x01800000, 0x01C00000), (0x03C00000, 0x04000000)]

/-- Access to all fields listed at a register, from a word. -/
def fldOf (f : Fld) (word : Nat) : Nat := bits word f.lo f.w

end Sys2Proof.Machine
end

