-- ==== Sys2Proof/Machine/State.lean ====
section
/-! DEFINITION. The state of the block: the register words that differ from their reset values, and every store, table,
queue and mode the spec gives the die beside them. -/

namespace Sys2Proof.Machine

/-- One ccy of a partition's lane of the hold tree (R238): the causes requested for it (bit 0 bubble, 1 missed sailing,
2 dry feeder, 3 backed-up drain, 4 tide wait, 5 from another die; 6 and 7 a wait at a join, which counts as 1 or 4 and is
not sent, R245), and whether its examination and its decision are done. -/
structure HoldSlot where
  causes : Nat
  exam : Bool
  dec : Bool
  deriving DecidableEq, Repr

/-- How a voyage ended, for its completion record (R303, R304). -/
structure VEnd where
  status : Nat
  clidx : Nat
  fcode : Nat
  ffld : Nat
  faddr : Nat
  fscy : Nat
  deriving DecidableEq, Repr

/-- What a fault of R441 still needs before its leg is replayed (R445). -/
inductive Remedy where
  | none
  | remap (c core : Nat)
  | reload (c : Nat) (berth : Option Nat)
  | fence (c : Nat)
  | endv (fcode : Nat)
  deriving DecidableEq, Repr

/-- A stop that waits for its ccy (R443): the ccy before which it falls, the schedule cycle of the LEG stroke whose leg is
charged (R442), and how the voyage then ends, where the leg is not to be replayed. -/
structure RecStop where
  ccy : Nat
  leg : Nat
  fin : Option VEnd
  deriving DecidableEq, Repr

/-- What one partition holds beside its registers. -/
structure Part where
  /-- cluster indices, ascending -/
  cls : List Nat
  /-- ccy w to w + 12 of the hold tree -/
  hold : List HoldSlot
  /-- schedule cycle count (R27) and ccy since the voyage began -/
  scyc : Nat
  pccy : Nat
  /-- schedule cycles of the voyage, once every pilot has carried out its END stroke (R201, R303) -/
  ended : Option Nat
  /-- schedule cycle before which a stop falls, and how the voyage then ends (R181, R231) -/
  stopAt : Option (Nat × VEnd)
  /-- schedule cycle of a TIDE stroke not yet released (R166) -/
  tideAt : Option Nat
  /-- a voyage runs: from its start (R26) to its end or stop -/
  live : Bool
  /-- how the voyage ended, once it has -/
  fin : Option VEnd
  /-- remedies of the recovery in progress (R445) -/
  rems : List Remedy
  /-- the stop of a recovery that is still to fall, and the schedule cycle at which the last one fell (R443) -/
  recov : Option RecStop
  stopCyc : Nat
  /-- cluster and port of the parity errors of the last replay of this leg, and of this run of it (R230) -/
  badPorts : List (Nat × Nat)
  newBad : List (Nat × Nat)
  /-- SELFENQ strokes not yet copied: schedule cycle, tide period, cluster, berth, byte (R167, R301) -/
  selfq : List (Nat × Nat × Nat × Nat × Nat)
  /-- accumulator of the bubble generator (R413) -/
  bubAcc : Nat
  /-- joins of a through-sailing partition: notices sent, and notices received by member (R245) -/
  joinsSent : Nat
  joinsIn : List Nat
  /-- holds taken, by member (R393) -/
  holdsIn : List Nat
  /-- schedule cycle of the TIDEWAIT join whose notice has been sent -/
  joinAt : Option Nat
  /-- ccy since the first ccy of RAMP, while the ramp runs (R273) -/
  rampJ : Option Nat
  deriving DecidableEq, Repr

/-- A partition that does not exist. (log 21, DESIGN CHOICE) -/
def Part.empty : Part :=
  { cls := [], hold := List.replicate 13 ⟨0, false, false⟩, scyc := 0, pccy := 0, ended := none, stopAt := none, tideAt := none,
    live := false, fin := none, rems := [], recov := none, stopCyc := 0, badPorts := [], newBad := [], selfq := [], bubAcc := 0, joinsSent := 0,
    joinsIn := List.replicate 8 0, holdsIn := List.replicate 8 0, joinAt := none, rampJ := none }

/-- Schedule cycles of the voyage: none is counted after the last END stroke (R303). -/
def Part.voyageCycles (q : Part) : Nat := q.ended.getD q.scyc

/-- A message, an access or a level the die sends out. (log 6, DESIGN CHOICE) -/
inductive Out where
  /-- an access of the front end for a partition, by package virtual address; its translation and its answer are found in
  the command that takes the answer -/
  | va (part : Nat) (wr : Bool) (va len : Nat) (data : Bytes)
  | torec (land : Nat) (h : Header) (data : Bytes)
  /-- a word sent in a slot of a fixed-latency landing, with the low 8 bits of its schedule cycle (R242, R390) -/
  | slot (land slot scy8 : Nat) (data : Bytes) (poison : Bool) (crc : Nat)
  /-- a hold, a join notice or a stop of a member in the control entry of partition p on a landing (R393) -/
  | hold (land part member : Nat)
  | join (land part member : Nat)
  | stop (land part member : Nat)
  /-- a frame of a landing in fixed-latency mode, and what its lanes carry: module, lane, and the bits of its unit intervals
  (R390, R391) -/
  | frame (land : Nat) (f : Frame) (lanes : List (Nat × Nat × Nat))
  /-- an elastic unit of a fixed-latency landing: its sequence number, the last one received intact, and 62 bytes (R392) -/
  | unit (land seq ack : Nat) (data : Bytes)
  /-- the capability block over the sideband (R387), and a change request and its answers (R403) -/
  | cap (land : Nat) (block : Bytes)
  | rtreq (land pos m kind : Nat)
  | rtack (land : Nat)
  | rtnak (land : Nat)
  /-- the module set agreed for a tide, with the new EPOCH (R399 step 2) -/
  | agree (land tide epoch : Nat) (set : List Nat)
  /-- a read or write on a CXL landing (R373) -/
  | cxl (land : Nat) (wr : Bool) (pa len : Nat) (data : Bytes) (tag : Nat)
  /-- what an I3C transfer, a TAP scan or a register read answers -/
  | i3c (ack : Bool) (data : Bytes)
  | tdo (n v : Nat)
  deriving DecidableEq, Repr

/-- A posted event as its ring entry holds it (R307). -/
structure Event where
  seq : BitVec 32
  code : BitVec 16
  blk : Byte
  part : Byte
  tide : BitVec 32
  loc : BitVec 32
  arg0 : W64
  arg1 : W64
  deriving DecidableEq, Repr

/-- The changes made to one tally in the present ccy and not yet applied (R253, R254): schedule and elastic, up and down. -/
structure TNet where
  sinc : Nat
  sdec : Nat
  einc : Nat
  edec : Nat
  deriving DecidableEq, Repr

/-- No change. -/
def TNet.zero : TNet := ⟨0, 0, 0, 0⟩

/-- A word in the slip buffer of a slot, with its delivery cycle (R242). -/
structure SlipWord where
  slot : Nat
  due : Nat
  data : Bytes
  poison : Bool
  crc : Nat
  deriving DecidableEq, Repr

/-- A planned change of a landing (R399, R403): whether this die asked for it and whether LND_RTCMD did; the module; the
kind (0 to x32, 1 retrain, 2 retirement, 3 return to service); the half kept at x32 (1 upper); the cause for event 0x0604;
the failed lane; the state the module returns to, and whether its failed lanes are then cleared; whether the partner has
accepted, and whether it had by the seal. -/
structure Change where
  own : Bool
  cmd : Bool
  m : Nat
  kind : Nat
  half : Nat
  cause : Nat
  lane : Nat
  back : Nat
  clear : Bool
  acked : Bool
  sealed : Bool
  deriving DecidableEq, Repr

/-- What a landing holds beside its registers. -/
structure Land where
  /-- send credits of the six classes, and messages that wait for them (R382) -/
  cred : List Nat
  txq : List (Header × Bytes)
  /-- agreed payload limit in 16-byte units, and key ordering (R388) -/
  maxpl : Nat
  keys : Bool
  /-- capability blocks of this training: failures of CHK, own blocks sent, whether the partner's is agreed; a later
  block that takes effect at the next tide (R387, R388, R511) -/
  capBad : Nat
  capSent : Nat
  capOk : Bool
  capNext : Option Bytes
  /-- modules whose sideband is up -/
  sideUp : List Nat
  /-- the planned change in progress, and those that wait -/
  chg : Option Change
  wait : List Change
  /-- modules retraining, with the change that a return completes (R399) -/
  retr : List Change
  /-- modules the partner retrains, each with its state before: module × 8 + state (R403) -/
  partner : List Nat
  /-- the CCLK that the partner last reported, not yet compared (R37) -/
  pcclk : Option Nat
  slip : List SlipWord
  /-- holds received: key control entry × 8 + member (R393) -/
  holdRx : SMap Nat
  /-- elastic units: next sequence number, last received, units not acknowledged (R392) -/
  txSeq : Nat
  rxSeq : Nat
  unacked : List (Nat × Bytes)
  /-- lane errors of the tide period: key module × 128 + lane (R397) -/
  perr : SMap Nat
  /-- failed redundant lanes of the modules, bit i for lane 64 + i (R398) -/
  redFail : SMap Nat
  /-- for the next frames: slot words (partition, slot, data, poisoned), elastic units, and control bits (entry, bit, ccy of
  the partition in which it leaves) (R391-R393) -/
  words : List (Nat × Nat × Bytes × Bool)
  txu : List (Nat × Bytes)
  ctl : List (Nat × Nat × Nat)
  /-- the capacity, in half modules, of the epoch before the present one (R399) -/
  wasCap : Nat
  /-- tags of the die's requests on this landing that have no answer yet (R401) -/
  sent : List Nat
  deriving DecidableEq, Repr

/-- A landing that is down. (log 21, DESIGN CHOICE) -/
def Land.empty : Land :=
  { cred := List.replicate 6 0, txq := [], maxpl := 16, keys := false, capBad := 0, capSent := 0, capOk := false,
    capNext := none, sideUp := [], chg := none, wait := [], retr := [], partner := [], pcclk := none, slip := [], holdRx := [], txSeq := 0,
    rxSeq := 255, unacked := [], perr := [], redFail := [], words := [], txu := [], ctl := [], wasCap := 0, sent := [] }

/-- A TALLY message that waits for RAMP (R267). -/
structure HeldTally where
  h : Header
  tally : Nat
  amount : Int
  deriving DecidableEq, Repr

/-- What the tide unit holds beside its registers. -/
structure Tide where
  /-- tide 0 has been released -/
  begun : Bool
  /-- the notice of the tide that ends this period has come (R261), and so on -/
  noticed : Bool
  /-- expected-count lists copied: partition, cluster, entries (R262) -/
  lists : List (Nat × Nat × List (Nat × Nat))
  /-- partitions that waited at the barrier, stopped at TLATE in this period -/
  late : List Nat
  /-- TALLYs sent and not acknowledged: die, tally (R386) -/
  sent : List (Nat × Nat)
  held : List HeldTally
  /-- decrements that wait for committed units (R256) -/
  waits : List HeldTally
  stalled : Bool
  /-- CCLK that the release carried, and whether RECON has done its work -/
  cclk : Nat
  recon : Bool
  /-- epoch and digest that the die sent with its seal (R457), and the REPORT (R424) -/
  dig : Nat × Bytes
  rep : Option TollReport
  /-- ccy from the last arrival to the release, for the REPORT (R424) -/
  stall : Nat
  /-- broadcasts seen: opcode, source, tide or term (R380) -/
  seen : List (Nat × Nat × Nat)
  /-- term of the last valid release -/
  relTerm : Nat
  /-- DBW or a landing's module set has changed since the last RECON -/
  dbwNew : Bool
  deriving DecidableEq, Repr

/-- The tide unit at reset. (log 21, DESIGN CHOICE) -/
def Tide.empty : Tide :=
  { begun := false, noticed := false, lists := [], late := [], sent := [], held := [], waits := [], stalled := false, cclk := 0, recon := false,
    dig := (0, []), rep := none, stall := 0, seen := [], relTerm := 0, dbwNew := false }

/-- What the helm holds, and what each die holds about the members (R456, R458, R424). -/
structure Helm where
  /-- highest tide sealed, by position -/
  seals : SMap Nat
  /-- the last tide released by this helm in its term, plus 1, and the last whose notice it has sent, plus 1 -/
  rel : Nat
  ntc : Nat
  /-- its own claim was broadcast again in this period -/
  again : Bool
  /-- epoch and digest received for the coming RECON, by position -/
  digs : List (Nat × Nat × Bytes)
  /-- last REPORTs and last grants in mW, by position; PKGB of the last computation -/
  reps : List (Nat × TollReport)
  grants : List (Nat × Nat)
  pkgb : Nat
  begun : Bool
  deriving DecidableEq, Repr

/-- No member known. (log 21, DESIGN CHOICE) -/
def Helm.empty : Helm :=
  { seals := [], rel := 0, ntc := 0, again := false, digs := [], reps := [], grants := [], pkgb := 0, begun := false }

/-- What the power controller and the thermal unit hold beside their registers. -/
structure Power where
  /-- burst credit in units of 0.5 nJ (R419) -/
  q : Nat
  /-- partitions whose held power has been estimated (R414) -/
  hseen : List Nat
  /-- successive steps above the cap at density 255, and per rail at Y = 0 (R417) -/
  capRun : Nat
  railRun : SMap Nat
  /-- bubbles of this tide period, and missed sailings by partition (R424) -/
  bub : Nat
  miss : SMap Nat
  /-- a droop was seen in the present control step; ccy it has lasted by region; starts delayed, by partition, and the ccy
  that the present delay still lasts (R423) -/
  droop : Bool
  droopRun : SMap Nat
  delay : SMap Nat
  delayLeft : SMap Nat
  /-- successive thermal samples below the release point of a throttle level, by level, up to 10 ms (R420) -/
  cool : SMap Nat
  /-- the grant that waits for its tide: tide and mW; a late or foreign grant counts as missed (R424) -/
  grant : Option (Nat × Nat)
  clamped : List Nat
  /-- DEMAND of the last step, mW, and PWR_DENERGY when the tide period began (R424) -/
  demand : Nat
  energyAt : Nat
  deriving DecidableEq, Repr

/-- The power controller at reset. (log 21, DESIGN CHOICE) -/
def Power.empty : Power :=
  { q := 0, hseen := [], capRun := 0, railRun := [], bub := 0, miss := [], droop := false, droopRun := [], delay := [],
    delayLeft := [], cool := [], grant := none, clamped := [], demand := 0, energyAt := 0 }

/-- Bring-up (R431, R432): the entries of OD 0x1200 and the step that last failed. `work` is the result the step's work
recorded, if it has: 0 done, else a cause. -/
structure Bring where
  step : Nat
  status : Nat
  cause : Nat
  doneMask : Nat
  elapsed : Nat
  ldown : Nat
  failed : Option Nat
  work : Option Nat
  /-- successive tides whose digests agreed (R434 SEAL) -/
  agree : Nat
  deriving DecidableEq, Repr

/-- Bring-up at reset. (log 21, DESIGN CHOICE) -/
def Bring.empty : Bring := ⟨0, 0, 0, 0, 0, 0, none, none, 0⟩

/-- The test access port (R515-R518): its instruction, the bypass bit, the boundary register, whether its outputs are held
or high-impedance, and what the next capture returns. -/
structure Tap where
  ir : Nat
  byp : Bool
  bound : Nat
  mode : Nat
  dbg : Nat
  scan : Nat
  deriving DecidableEq, Repr

/-- The TAP after TRST_N. (log 21, DESIGN CHOICE) -/
def Tap.empty : Tap := ⟨0x01, false, 0, 0, 0, 0⟩

/-- The I3C target (R482): its dynamic address, limits, and the response to the last request once it is ready; of the
requests that wait in the mailbox, how many have had their responses discarded by a newer request. -/
structure I3c where
  addr : Option Nat
  mwl : Nat
  mrl : Nat
  resp : Option Bytes
  drop : Nat
  deriving DecidableEq, Repr

/-- The I3C target at reset. (log 21, DESIGN CHOICE) -/
def I3c.empty : I3c := ⟨none, 256, 256, none, 0⟩

/-- Staging of a segmented write (R477). -/
structure Staging where
  q : Requester
  index : Nat
  sub : Nat
  data : Bytes
  deriving DecidableEq, Repr

/-- The management processor beside its registers. -/
structure Mp where
  staging : List Staging
  /-- firmware images in slots A and B -/
  slotA : Bytes
  slotB : Bytes
  /-- swap pending to this slot (R490) -/
  swap : Option Nat
  /-- windows in a row with LOAD at or below 85 while shedding (R467) -/
  cool : Nat
  loadMax : Nat
  /-- attestation: the nonce of a report that is not ready, and the last report (R492) -/
  nonce : Option Bytes
  report : Option Bytes
  /-- ring-log records not yet copied, records that were lost, those of them that LOST and LOGLOST do not count yet, and
  whether the log's region is new (R483, R485) -/
  rlNew : Nat
  lost : Nat
  late : Nat
  plNew : Bool
  /-- records whose copies are not acknowledged: how many, how many of them the ring log has overwritten since, and the tags of
  the writes (R485) -/
  plN : Nat
  plOver : Nat
  plOut : List Nat
  /-- the free values that the data region and the core registers hold (R464) -/
  dataGen : Nat
  coreGen : Nat
  /-- dictionary requests that wait while no firmware runs, the oldest first (R476, R491) -/
  mbox : List Instr
  deriving DecidableEq, Repr

/-- The MP at reset. (log 21, DESIGN CHOICE) -/
def Mp.empty : Mp :=
  { staging := [], slotA := [], slotB := [], swap := none, cool := 0, loadMax := 0, nonce := none, report := none,
    rlNew := 0, lost := 0, late := 0, plNew := false, plN := 0, plOver := 0, plOut := [], dataGen := 0, coreGen := 0, mbox := [] }

/-- Supplies and reset (R505-R507). -/
structure Pads where
  vin : Bool
  pwrgd : Bool
  rstn : Bool
  /-- the reset input is, or was last, what reset the die -/
  straps : Straps
  thermtrip : Bool
  deriving DecidableEq, Repr

/-- A ferry descriptor on its way (R318, R322, R328). -/
structure Desc where
  /-- order of placement, die-wide -/
  uid : Nat
  part : Nat
  gen : Nat
  dva : Nat
  body : Bytes
  /-- 0 a load of the front end (berth `load`), 1 PRE, 2 RUN, 3 LEG -/
  stage : Nat
  load : Option (Nat × Nat)
  eng : Nat
  home : Nat
  /-- transfer offset of the next piece -/
  off : Nat
  begun : Bool
  /-- failure found: STATUS, CODE, and offset of the first byte not acknowledged -/
  fail : Option (Nat × Nat × Nat)
  /-- end of the descriptor: 0 moving, 1 status block issued, 2 acknowledged (R328) -/
  fin : Nat
  /-- transfer offset up to which its bucket has given bytes (R324) -/
  paid : Nat
  deriving DecidableEq, Repr

/-- A parked descriptor and its fault (R338, R339). -/
structure Park where
  d : Desc
  code : Nat
  level : Nat
  acc : Nat
  addr : Nat
  entry : Nat
  cause : Nat
  /-- it met its fault at its status write; an ABORT has ended it (R338, R340) -/
  stw : Bool
  ended : Bool
  deriving DecidableEq, Repr

/-- A piece in flight, in the order issued: descriptor, partition, generation, offset, length, whether it waits for a write,
its request tag, whether a reset has turned its data to the discard sink, and its destination in memory (R321, R343). -/
structure Fly where
  uid : Nat
  part : Nat
  gen : Nat
  off : Nat
  len : Nat
  wr : Bool
  tag : Nat
  sink : Bool
  /-- physical address of the destination, where it is memory -/
  dpa : Nat
  /-- a read: the bytes of its first part (a part that runs on in another page has the next tag), the low 4 bits of its
  address, and what each part has brought -/
  n1 : Nat
  skip : Nat
  got1 : Option Bytes
  got2 : Option Bytes
  /-- it holds all its data, and waits on the ring for a landing buffer (R233) -/
  ring : Bool
  deriving DecidableEq, Repr

/-- What an access names before translation: a package virtual address, or a linear byte of a stream slot (R336). -/
structure Point where
  stream : Bool
  slot : Nat
  addr : Int
  deriving DecidableEq, Repr

/-- A ferry engine beside its registers. -/
structure Eng where
  q : List Desc
  act : Option Desc
  /-- the chunk of the active descriptor has begun -/
  chunk : Bool
  pre : Bool
  park : List (Option Park)
  fly : List Fly
  /-- translations that walks have found for the next access of a descriptor: its uid, point and address -/
  xl : List (Nat × Point × Nat)
  deriving DecidableEq, Repr

/-- An idle engine. (log 21, DESIGN CHOICE) -/
def Eng.empty : Eng :=
  { q := [], act := none, chunk := false, pre := false, park := List.replicate 8 none, fly := [], xl := [] }

/-- A walk of the chart unit in progress (R332, R333): who asked (engine 0-63), partition, generation, what it translates,
read or write, and whether an invalidation has been written since it began. -/
structure CWalk where
  id : Nat
  eng : Nat
  uid : Nat
  part : Nat
  gen : Nat
  pt : Point
  wr : Bool
  stale : Bool
  deriving DecidableEq, Repr

/-- A cached chart entry (R333): partition, level, physical address of the entry, virtual address or page index it serves,
and the entry. -/
structure CEnt where
  part : Nat
  level : Nat
  pa : Nat
  va : Nat
  entry : Nat
  deriving DecidableEq, Repr

/-- A stream bound to a voyage (R310): index, POS and the entry as bound. -/
structure BStream where
  index : Nat
  pos : Nat
  ent : Bytes
  deriving DecidableEq, Repr

/-- An access of the front end that a chart fault has parked (R294, R320, R340): 0 the manifest, 1 its checks, 2 a
descriptor. -/
structure FePark where
  kind : Nat
  code : Nat
  level : Nat
  addr : Nat
  deriving DecidableEq, Repr

/-- What the front end holds for a partition beside its registers. -/
structure Fe where
  priv : Bool
  w : Nat
  h : Nat
  x0 : Nat
  y0 : Nat
  holdt : Nat
  dissolving : Bool
  halt : Bool
  /-- the current manifest, its lists, and its image -/
  man : Bytes
  berths : List Bytes
  wins : List Bytes
  descs : List Bytes
  image : Bytes
  streams : List BStream
  /-- berths still to place (cluster, handle, entry), and berths whose load is under way -/
  toPlace : List (Nat × Nat × Nat)
  loading : List (Nat × Nat × Nat)
  /-- descriptors to fetch (STAGE, ENG, DVA), and one that waits for room in an engine queue (R317, R320) -/
  fetch : List (Nat × Nat × Nat)
  place : List Desc
  /-- STATUS, CLIDX, FCODE, FFLD, FADDR, FSCY of the record to come, where the manifest ends without a voyage -/
  fail : Option VEnd
  parked : Option FePark
  imgid : SMap Nat
  /-- windows the front end opened -/
  opened : List (Nat × Nat)
  seacc : Nat
  seref : Nat
  nvoy : Nat
  /-- partition energy and held ccy when the voyage entered READY, and energy when the manifest entered CLOSE; it has been
  READY since its manifest was taken (R411) -/
  energy0 : Nat
  energy1 : Nat
  ready : Bool
  holds0 : Nat
  nrep : Nat
  /-- a completion record written and not delivered; stream-entry writes not acknowledged (R305) -/
  record : Option Bytes
  /-- gather queue: index and entry, in the order queued (R366); overflow; streams bound by recent voyages -/
  gq : List (Nat × Bytes)
  gqovf : Nat
  gbatch : List Nat
  /-- a GATHER manifest waits for its batch (R367) -/
  gather : Bool
  /-- legs of the voyage: schedule cycle of the LEG, bytes LEG descriptors moved, held ccy for misses and dry feeders; the
  last 16 (R364) -/
  legs : List (Nat × Nat × Nat)
  resid : Nat
  strBytes : Nat
  /-- LEGB, LEGT, EMISS and MISSL of the last voyage (R364) -/
  figs : List Nat
  /-- event 0x0108 has been posted for the manifest: a privileged partition waits for clusters (R358) -/
  waiting : Bool
  /-- LOAD: whether windows are open and the program is loaded; bytes of the program the bucket has not yet given (R361) -/
  opening : Bool
  progLeft : Nat
  /-- the berths of the manifest have been released and placed -/
  placed : Bool
  /-- how the manifest ended and whether its voyage ran, once its streams are updated and its record is still to be written
  (R305) -/
  closing : Option (VEnd × Bool)
  /-- an instance reset whose stop is still to fall (R313) -/
  resetting : Bool
  deriving DecidableEq, Repr

/-- A partition that does not exist. (log 21, DESIGN CHOICE) -/
def Fe.empty : Fe :=
  { priv := false, w := 0, h := 0, x0 := 0, y0 := 0, holdt := 0, dissolving := false, halt := false, man := [], berths := [],
    wins := [], descs := [], image := [], streams := [], toPlace := [], loading := [], fetch := [], place := [], fail := none,
    parked := none, imgid := [], opened := [], seacc := 0, seref := 0, nvoy := 0, energy0 := 0, energy1 := 0, ready := false,
    holds0 := 0, nrep := 0,
    record := none, gq := [], gqovf := 0, gbatch := [], gather := false, legs := [], resid := 0, strBytes := 0,
    figs := [0, 0, 0, 0], waiting := false, opening := false, progLeft := 0, placed := false, closing := none, resetting := false }

/-- A line of the COH window as the front end holds it (R385): its data, 0 invalid, 1 read for sharing, 2 shared, 3 read for
ownership, 4 owned, 5 being written back, and whether it must be written (again). -/
structure CohLine where
  data : Bytes
  st : Nat
  dirty : Bool
  deriving DecidableEq, Repr

/-- A line not held. (log 20, DESIGN CHOICE) -/
def CohLine.empty : CohLine := ⟨List.replicate 64 0, 0, false⟩

/-- The command of OD 0x3100 in progress (R350, R351). -/
structure PartCmd where
  op : Nat
  part : Nat
  /-- DISSOLVE: its clusters are being cleared; the generation it drained; the drain has begun -/
  cls : List Nat
  gen : Nat
  begun : Bool
  deriving DecidableEq, Repr

/-- What is fixed at manufacture (R4, R437, R488, R492, R495). -/
structure Fuses where
  grade : Byte
  drow : Byte
  dcol : List Byte
  recs : List DefectRec
  serial : W64
  mfid : BitVec 64
  romver : BitVec 32
  svnmin : BitVec 32
  /-- SHA-384 hashes of the four accepted keys, and those revoked -/
  keys : List Bytes
  revoked : BitVec 4
  romHash : Bytes
  cert : Bytes
  tapId : BitVec 11
  deriving DecidableEq, Repr

/-- Why a step faults. The block raises no exception and the spec stops no command, so nothing raises one. -/
inductive Fault where
  deriving DecidableEq, Repr

/-- Why a command is refused. -/
inductive Refusal where
  /-- The command has no meaning yet; raised by its arm of `exec`; safe, since no next state is claimed. -/
  | notModelled (mnemonic : String)
  deriving DecidableEq, Repr

/-- The state of the die. -/
structure State where
  pending : List Instr
  regs : SMap W64
  fuses : Fuses
  /-- the field defect map (R437) -/
  fmap : List DefectRec
  cl : SMap Cluster
  pt : SMap Part
  tnet : SMap TNet
  evq : List Event
  evSeq : BitVec 32
  /-- posts dropped since the queue last had room (R306) -/
  evDrop : Nat
  ringLog : List Event
  /-- events posted at most once in a tide period that this period has posted (R210, R258, R379, R417) -/
  once : List Nat
  /-- landings whose partner reports another CCLK (R37) -/
  cclkBad : List Nat
  /-- ccy by which droop has lengthened the waves of the present ramp (R423) -/
  rampExt : Nat
  out : List Out
  /-- dictionary values that differ from their defaults: key index × 256 + subindex (R471-R476) -/
  od : SMap Bytes
  /-- configuration-class values that the coming RECON applies, and those written after the die sealed the coming tide,
  which wait for the next (R457, R483): keys as in `od` -/
  cfgNext : SMap Bytes
  cfgLate : SMap Bytes
  land : SMap Land
  tide : Tide
  helm : Helm
  pow : Power
  bring : Bring
  tap : Tap
  i3c : I3c
  mp : Mp
  pads : Pads
  fe : SMap Fe
  coh : SMap CohLine
  /-- stream cache, most recently used first: index and entry (R311) -/
  scache : List (Nat × Bytes)
  /-- order of the last fetch from each ring (R286), and the last order given -/
  ringLast : SMap Nat
  ringTick : Nat
  /-- TAIL of the rings, as last read; rings in error (R284) -/
  tails : SMap Nat
  ringErr : List Nat
  /-- tags of event-ring writes not yet acknowledged (R306) -/
  evOut : List Nat
  /-- stream-entry writes of a voyage's end not yet acknowledged: tag, partition (R305) -/
  seOut : List (Nat × Nat)
  engs : SMap Eng
  /-- next descriptor uid, request tag and walk number -/
  nextUid : Nat
  nextTag : Nat
  nextWalk : Nat
  walks : List CWalk
  /-- cached chart entries, the newest first (R333) -/
  cache : List CEnt
  /-- buckets by partition, in 1/1024 byte (R324) -/
  bucket : SMap Nat
  /-- park slots (engine, slot; 0x40 the front end) that an instance reset emptied (R340, R343) -/
  gone : List (Nat × Nat)
  /-- fault records not yet written: engine, slot and the record without its SEQ (R339); the queue was full -/
  frecs : List (Nat × Nat × Bytes)
  fqFull : Bool
  /-- partitions whose old generation drains, with the generation (R343), and reads abandoned -/
  drains : List (Nat × Nat)
  pcmd : Option PartCmd
  /-- guaranteed and deliverable memory bandwidth, MB/s (R362, R402) -/
  gbw : Nat
  dbw : Nat
  /-- trace buffer by slot, and records a stream still holds (R519) -/
  trace : SMap Bytes
  trHeld : Nat
  /-- lane capture (R521): schedule cycle when it was armed, and cycles recorded -/
  cap : Nat × Nat
  /-- who wrote the stream command in progress (R312) -/
  scmdq : Option Requester
  /-- the model's own counter of free values: each one that a command takes is of another number -/
  free : Nat
  /-- status (R480) and word of the last register access -/
  lastStat : Nat
  lastData : W64
  deriving DecidableEq, Repr

/-- The fuses of the part the model starts as: grade AK80, no defects, no identity programmed (the log says so). (log 4, DESIGN CHOICE) -/
def Fuses.reset : Fuses :=
  { grade := 0x50, drow := 0xFF, dcol := [], recs := [], serial := 0, mfid := 0, romver := 0, svnmin := 0, keys := [], revoked := 0,
    romHash := [], cert := [], tapId := 0 }

/-- The pads right after reset is released: supplies in range, RST_N high. (log 22, DESIGN CHOICE) -/
def Pads.reset : Pads := { vin := true, pwrgd := true, rstn := true, straps := ⟨0, false, false⟩, thermtrip := false }

/-- The die right after its reset is released (R507, R508): no command waits, every register holds its reset value, every
store and queue is empty. (log 4, DESIGN CHOICE) -/
def State.reset : State :=
  { pending := [], regs := [], fuses := Fuses.reset, fmap := [], cl := [], pt := [], tnet := [], evq := [], evSeq := 0,
    evDrop := 0, ringLog := [], once := [], cclkBad := [], rampExt := 0, out := [], od := [], cfgNext := [], cfgLate := [], land := [], tide := Tide.empty,
    helm := Helm.empty, pow := Power.empty, bring := Bring.empty, tap := Tap.empty, i3c := I3c.empty, mp := Mp.empty,
    pads := Pads.reset, fe := [], coh := [], scache := [], ringLast := [], ringTick := 0, tails := [], ringErr := [],
    evOut := [], seOut := [], engs := [], nextUid := 0, nextTag := 0, nextWalk := 0, walks := [], cache := [], bucket := [], gone := [], frecs := [],
    fqFull := false, drains := [], pcmd := none, gbw := 0, dbw := 0, trace := [], trHeld := 0, cap := (0, 0), scmdq := none, free := 0, lastStat := 0, lastData := 0 }

/-- What a command answers. -/
abbrev Res := Host.Outcome State Fault Refusal

end Sys2Proof.Machine
end

