-- ==== Sys2Proof/Machine/Ops.lean ====
section
/-! DEFINITION. The named operations over State that every family uses: register words and fields, clusters and
partitions, berths, events, tallies, and bytes of the stores. -/

namespace Sys2Proof.Machine

/-! ### Registers -/

/-- Reset value of a field that depends on where it stands (R408, R459); every other field has the value of its table. -/
def fieldReset (f : Fld) (idx : List Nat) : Nat :=
  match f.reg with
  | .CLU_CMAP => listGet 0 idx 1 * 8 + f.lo / 8
  | .PWR_RAIL_LIMIT =>
    let n := listGet 0 idx 0
    let row : Nat × Nat × Nat :=
      if n ≤ 24 ∨ n = 34 then (400, 340, 480)
      else if n = 25 then (1200, 1050, 1400)
      else if n ≤ 33 then (200, 170, 240)
      else (20, 20, 30)
    if f.lo = 52 then row.1 else if f.lo = 40 then row.2.1 else row.2.2
  | _ => f.rst

/-- The word a register holds when nothing has changed it. -/
def resetWord (r : RegId) (idx : List Nat) : Nat :=
  (regFields r).foldl (fun a f => a + fieldReset f idx * 2 ^ f.lo) 0

/-- The word of a register. -/
def State.word (s : State) (r : RegId) (idx : List Nat) : Nat :=
  match SMap.find s.regs (regAddr r idx) with
  | some v => v.toNat
  | none => resetWord r idx

/-- Set the word of a register; a register at its reset word is not listed. -/
def State.setWord (s : State) (r : RegId) (idx : List Nat) (v : Nat) : State :=
  let a := regAddr r idx
  { s with regs := if v = resetWord r idx then SMap.del s.regs a else SMap.put s.regs a (BitVec.ofNat 64 v) }

/-- A field of a register. -/
def State.fld (s : State) (f : Fld) (idx : List Nat) : Nat := bits (s.word f.reg idx) f.lo f.w

/-- A one-bit field. -/
def State.bit (s : State) (f : Fld) (idx : List Nat) : Bool := s.fld f idx == 1

/-- Set a field of a register. -/
def State.setFld (s : State) (f : Fld) (idx : List Nat) (v : Nat) : State :=
  s.setWord f.reg idx (putBits (s.word f.reg idx) f.lo f.w v)

/-- Add to a counter that saturates at its largest value. -/
def State.incFld (s : State) (f : Fld) (idx : List Nat) (n : Nat) : State :=
  s.setFld f idx (satAdd f.w (s.fld f idx) n)

/-- Set fields of a register one after another. -/
def State.setFlds (s : State) (idx : List Nat) (l : List (Fld × Nat)) : State :=
  l.foldl (fun a p => a.setFld p.1 idx p.2) s

/-! ### Where a command may act -/

/-- The die is in reset: a supply is out of range, or RST_N is low (R505-R507). -/
def State.inReset (s : State) : Bool := !(s.pads.vin && s.pads.pwrgd && s.pads.rstn)

/-- The clocked die runs: it is out of reset, and no trip has gated CCLK and ICLK (R422). -/
def State.coreOn (s : State) : Bool := !s.inReset && !s.bit F.PWR_TSTAT.TRIP []

/-- A command of the clocked die: while it is in reset or tripped, everything stands where it is (R422, R507). (log 2, DEDUCED) -/
def onCore (s : State) (f : State → State) : Res := .next (if s.coreOn then f s else s)

/-- The number of the next free value, and the state in which it is taken. (log 8, DESIGN CHOICE) -/
def State.takeFree (s : State) : State × Nat := ({ s with free := s.free + 1 }, s.free)

/-- A command of what stands on the always-on rail, the MP and the sensors: it acts under a trip, and not in reset. (log 2, DEDUCED) -/
def onMp (s : State) (f : State → State) : Res := .next (if s.inReset then s else f s)

/-! ### Clusters and partitions -/

/-- Cluster `c`. -/
def State.clu (s : State) (c : Nat) : Cluster := SMap.get Cluster.empty s.cl c

/-- Change cluster `c`. -/
def State.modClu (s : State) (c : Nat) (f : Cluster → Cluster) : State :=
  { s with cl := SMap.upd Cluster.empty s.cl c f }

/-- Partition `p`. -/
def State.part (s : State) (p : Nat) : Part := SMap.get Part.empty s.pt p

/-- Change partition `p`. -/
def State.modPart (s : State) (p : Nat) (f : Part → Part) : State :=
  { s with pt := SMap.upd Part.empty s.pt p f }

/-- What the front end holds for partition `p`. -/
def State.front (s : State) (p : Nat) : Fe := SMap.get Fe.empty s.fe p

/-- Change it. -/
def State.modFront (s : State) (p : Nat) (f : Fe → Fe) : State := { s with fe := SMap.upd Fe.empty s.fe p f }

/-- A line of the COH window must be written (R282), or read anew. -/
def State.touch (s : State) (line : Nat) : State :=
  { s with coh := SMap.upd CohLine.empty s.coh line (fun l => { l with dirty := true }) }

/-- The front end's state for a partition (R298), with the summary of FE_STAT and the partition's status line. -/
def State.setPState (s : State) (p st : Nat) : State :=
  let mark := fun (f : Fld) (b : Bool) (s : State) => s.setFld f [] (setBit (s.fld f []) p b)
  let s := s.setFld F.FE_PSTAT.STATE [p] st
  ((mark F.FE_STAT.EXP (st != 0) s |> mark F.FE_STAT.RDYP (st == 5)) |> mark F.FE_STAT.RUNP (st == 6)).touch (128 + p)

/-- The manifest of partition `p` enters CLOSE, with the partition's energy (R298, R411). -/
def State.toClose (s : State) (p : Nat) : State :=
  (s.modFront p (fun f => { f with energy1 := s.fld F.PWR_PENERGY.E [p] })).setPState p 7

/-- The cluster belongs to a partition (CLU_STSTAT). -/
def State.inPart (s : State) (c : Nat) : Bool := s.bit F.CLU_STSTAT.INP [c]

/-- The partition of a cluster. -/
def State.partOf (s : State) (c : Nat) : Nat := s.fld F.CLU_STSTAT.CPART [c]

/-- Apply a change for every cluster of a list, in order. -/
def forClusters (l : List Nat) (f : Nat → State → State) (s : State) : State := l.foldl (fun a c => f c a) s

/-- Current schedule cycle of the cluster's partition. -/
def State.scycOf (s : State) (c : Nat) : Nat := (s.part (s.partOf c)).scyc

/-- A voyage of partition `p` runs, and no recovery has stopped it: a stop that is still to fall lets it go on (R443). -/
def State.voyaging (s : State) (p : Nat) : Bool := (s.part p).live && decide (s.fld F.FLT_PREC.STATE [p] ≤ 1)

/-- The pilot's state (R150): 0 IDLE, 1 READY, 2 RUN, 3 HELD, 4 TIDE, 5 ENDED, 6 FAULT. -/
def State.pilot (s : State) (c : Nat) : Nat := s.fld F.CLU_PSTAT.STATE [c]

/-- The current tide period (R38): the one that follows the last tide released, and period 0 before tide 0 is. -/
def State.period (s : State) : Nat := if s.tide.begun then s.fld F.TDE_TNUM.NUM [] + 1 else 0

/-! ### The dictionary's numbers, and the MP's state -/

/-- A number in the dictionary: as written, or its default. -/
def State.odNat (s : State) (ix sub dflt : Nat) : Nat :=
  match SMap.find s.od (ix * 256 + sub) with | some b => leNat b | none => dflt

/-- Set a number of `n` bytes in the dictionary. -/
def State.odSet (s : State) (ix sub n v : Nat) : State := { s with od := SMap.put s.od (ix * 256 + sub) (leBytes n v) }

/-- MPST of MGT_STAT: 0 ROM, 1 RUN, 2 SWAP, 3 RESTART, 4 HALT (R494). -/
def State.mpst (s : State) : Nat := s.fld F.MGT_STAT.MPST []

/-- Dictionary requests queued, as MGT_MBOX and OD 0x4200:05 show them (R468, R494). -/
def State.dictQueued (s : State) : Nat := max (s.fld F.MGT_MBOX.DQ []) (min 64 s.mp.mbox.length)

/-- Change what the MP holds. -/
def State.modMp (s : State) (f : Mp → Mp) : State := { s with mp := f s.mp }

/-! ### Events (R306, R484, R485) -/

/-- What the MP holds, a record having entered the ring log of 256: a record that was not copied yet is lost as it is
overwritten (R485). -/
def Mp.ringIn (m : Mp) : Mp :=
  if m.rlNew < 256 then { m with rlNew := m.rlNew + 1 }
  else if m.plOver < m.plN then { m with plOver := m.plOver + 1 }
  else { m with late := m.late + 1 }

/-- R484: a record enters the ring log of 256. -/
def State.ringAppend (s : State) (e : Event) : State := { s with ringLog := (e :: s.ringLog).take 256, mp := s.mp.ringIn }

/-- R306: an event takes a sequence number and the tide period, enters the ring log, and enters the on-die queue or, where
that is full, is dropped and counted; a record of the MP itself, BLK 0x01, enters the ring log all the same (R484). -/
def State.postEvent (s : State) (code blk part loc arg0 arg1 : Nat) : State :=
  let e : Event :=
    { seq := s.evSeq, code := BitVec.ofNat 16 code, blk := BitVec.ofNat 8 blk, part := BitVec.ofNat 8 part,
      tide := BitVec.ofNat 32 s.period, loc := BitVec.ofNat 32 loc, arg0 := BitVec.ofNat 64 arg0,
      arg1 := BitVec.ofNat 64 arg1 }
  if 1024 ≤ s.evq.length then
    let s : State := { s.incFld F.FE_EVSTAT.LOST [] 1 with evDrop := s.evDrop + 1 }
    if blk = 1 then s.ringAppend e else s
  else
    let s := { s with evq := s.evq ++ [e], evSeq := s.evSeq + 1 }.ringAppend e
    s.setFld F.FE_EVSTAT.QDEPTH [] s.evq.length

/-- Post an event. The first record that the ring log loses in a tide period posts event 0x090A (R485). -/
def State.post (s : State) (code blk part loc arg0 arg1 : Nat) : State :=
  let t := s.postEvent code blk part loc arg0 arg1
  if t.mp.late ≠ s.mp.late ∧ !s.once.contains 0x090A then
    ({ t with once := 0x090A :: t.once }).postEvent 0x090A 0x01 0xFF 0xFFFFFFFF (t.mp.lost + t.mp.late) (t.odNat 0x6000 3 0)
  else t

/-- Post an event the first time in a tide period that `key` is seen. -/
def State.postOnce (s : State) (key code blk part loc arg0 arg1 : Nat) : State :=
  if s.once.contains key then s else { s with once := key :: s.once }.post code blk part loc arg0 arg1

/-- LOC or PART of an event that names none. -/
abbrev locNone : Nat := 0xFFFFFFFF
/-- PART of an event that names none. -/
abbrev partNone : Nat := 0xFF

/-- Send a message or make an access; the most recent stands first. (log 6, DESIGN CHOICE) -/
def State.emit (s : State) (o : Out) : State := { s with out := o :: s.out }

/-! ### Berths (R192, R194) -/

/-- R194: handle `h` of cluster `c` is resident for the cluster's partition. -/
def State.resident (s : State) (c h : Nat) : Bool :=
  s.bit F.CLU_BERTH.VAL [c, h] && s.bit F.CLU_BERTH.RES [c, h] && !s.bit F.CLU_BERTH.PSN [c, h] &&
    !s.bit F.CLU_BERTH.ZPND [c, h] && s.fld F.CLU_BERTH.PART [c, h] == s.fld F.CLU_STSTAT.CPART [c] &&
    s.fld F.CLU_BERTH.GEN [c, h] == s.fld F.CLU_STSTAT.CGEN [c] && s.inPart c

/-- First byte of a berth in its store (R192). -/
def State.berthBase (s : State) (c h : Nat) : Nat := 64 * s.fld F.CLU_BERTH.BASE [c, h]

/-- Bytes of a berth. -/
def State.berthLen (s : State) (c h : Nat) : Nat := 64 * s.fld F.CLU_BERTH.LEN [c, h]

/-- Store of a berth: 0 W, 1 A, 2 P. -/
def State.berthStore (s : State) (c h : Nat) : Nat := s.fld F.CLU_BERTH.STORE [c, h]

/-- The berth of cluster `c` whose range holds byte `a` of a store, if any. -/
def State.berthAt (s : State) (c store a : Nat) : Option Nat :=
  (List.range 128).find? (fun h =>
    s.bit F.CLU_BERTH.VAL [c, h] && s.berthStore c h == store && decide (s.berthBase c h ≤ a) &&
      decide (a < s.berthBase c h + s.berthLen c h))

/-! ### P-store shadow (R203) -/

/-- R203: before the first write of the open leg to a P-store granule, copy the granule into the shadow. -/
def State.shadowCopy (s : State) (c gran : Nat) : State :=
  let k := s.clu c
  if s.bit F.CLU_STSTAT.SHA [c] && !(k.dirty.contains gran) then
    let s := s.modClu c (fun k =>
      { k with sh := Mem.store (k.sh.clear (64 * gran) (64 * gran + 64)) (64 * gran) (k.p.bytes (64 * gran) 64),
               dirty := insertBy id gran k.dirty })
    s.setFld F.CLU_PSHDW.DIRTY [c] (s.clu c).dirty.length
  else s

/-- Write `n` bits at a bit position of a store of cluster `c`, shadowing the P-store. -/
def State.putStore (s : State) (c store pos n v : Nat) : State :=
  let s :=
    if store = 2 then
      let g0 := pos / 512
      let g1 := (pos + n - 1) / 512
      let s := s.shadowCopy c g0
      if g1 = g0 then s else s.shadowCopy c g1
    else s
  s.modClu c (fun k => k.putBitsAt store pos n v)

/-! ### Tallies (R249-R259) -/

/-- R252, R253, R256, R257, R269: apply the net change of one ccy to an assigned tally. -/
def State.applyTally (s : State) (t : Nat) (n : TNet) : State :=
  if s.bit F.TDE_TCFG.ASG [t] then
    let v : Int := (s.fld F.TDE_TAL.VALUE [t] : Int) + n.sinc + n.einc - n.sdec - n.edec
    let s := if 16777215 < v then s.setFld F.TDE_TAL.SAT [t] 1 else s
    let s := if v < 0 then s.setFld F.TDE_TAL.UNF [t] 1 else s
    let s := s.setFld F.TDE_TAL.VALUE [t] (min v.toNat 16777215)
    let s := s.incFld F.TDE_TCNT.PROD [t] (n.sinc + n.einc)
    let s := s.incFld F.TDE_TCNT.CONS [t] (n.sdec + n.edec)
    let s := s.incFld F.TDE_TLEG.UINC [t] n.sinc
    s.setFld F.TDE_TLEG.SDELTA [t]
      (wrapN 32 ((s.fld F.TDE_TLEG.SDELTA [t] : Int) + n.sinc - n.sdec))
  else s

/-- R253, R254: a change joins those of the present ccy, which land together when the ccy of the tally's owner ends; while no
ccy of the owner runs, without a voyage or in a recovery, the change lands at once. -/
def State.changeTally (s : State) (t : Nat) (n : TNet) : State :=
  if s.voyaging (s.fld F.TDE_TCFG.OWNER [t]) && s.bit F.TDE_TCFG.ASG [t] then
    let m := SMap.get TNet.zero s.tnet t
    let m' : TNet := ⟨m.sinc + n.sinc, m.sdec + n.sdec, m.einc + n.einc, m.edec + n.edec⟩
    { s with tnet := SMap.set TNet.zero s.tnet t m' }
  else s.applyTally t n

/-- The ccy of partition `p` ends: its tallies take their net changes (R253, R254). -/
def State.settleTallies (s : State) (p : Nat) : State :=
  let mine := s.tnet.filter (fun e => s.fld F.TDE_TCFG.OWNER [e.1] == p)
  let s := { s with tnet := s.tnet.filter (fun e => s.fld F.TDE_TCFG.OWNER [e.1] != p) }
  mine.foldl (fun a e => a.applyTally e.1 e.2) s

/-- The value a schedule test sees (R255). -/
def State.tallySeen (s : State) (t : Nat) : Int :=
  (s.fld F.TDE_TAL.VALUE [t] : Int) - s.fld F.TDE_TAL.PEND [t]

/-- The committed value an elastic decrement waits for (R256). -/
def State.tallyCommitted (s : State) (t : Nat) : Nat :=
  (s.tallySeen t - s.fld F.TDE_TLEG.UINC [t]).toNat - (SMap.get TNet.zero s.tnet t).edec

/-- The tally lies in the range of partition `p` (R250). -/
def State.tallyOf (s : State) (p t : Nat) : Bool :=
  decide (t < 16384) && s.bit F.TDE_TCFG.ASG [t] && s.fld F.TDE_TCFG.OWNER [t] == p

/-- The tallies of partition `p` (R250). -/
def State.tallyRange (s : State) (p : Nat) : List Nat :=
  (List.range (s.fld F.TDE_PRANGE.CNT [p])).map (· + s.fld F.TDE_PRANGE.BASE [p])

/-- The change comes from the tally's owner. -/
def State.tallyOwn (s : State) (t sp : Nat) : Bool := s.bit F.TDE_TCFG.ASG [t] && s.fld F.TDE_TCFG.OWNER [t] == sp

/-- R258: an elastic change from partition `sp` with generation `gen`, over a landing from die `die` where given, applies. (log 55, DEDUCED) -/
def State.tallyAdmits (s : State) (t sp gen : Nat) (die : Option Nat) : Bool :=
  let xp := s.fld F.TDE_TCFG.XPART [t]
  let xd := s.fld F.TDE_TCFG.XDIE [t]
  (s.tallyOwn t sp && s.fld F.FE_PSTAT.GEN [s.fld F.TDE_TCFG.OWNER [t]] == gen) ||
    (s.bit F.TDE_TCFG.ASG [t] && (xp == 0x1F || xp == sp) && (match die with | none => true | some d => xd == 0x3F || xd == d))

/-- R258: an elastic change applies, or is dropped and counted. -/
def State.elasticTally (s : State) (t : Nat) (amount : Int) (sp gen : Nat) (die : Option Nat) : State :=
  if s.tallyAdmits t sp gen die then
    s.changeTally t (if 0 ≤ amount then ⟨0, 0, amount.toNat, 0⟩ else ⟨0, 0, 0, amount.natAbs⟩)
  else if s.tallyOwn t sp then s.incFld F.TDE_RCERR.STALE [] 1
  else
    let s := s.incFld F.TDE_RCERR.XDROP [] 1
    s.postOnce 0x0403 0x0403 0x14 partNone t sp (die.getD (s.fld F.ID_STRAP.POS []))

end Sys2Proof.Machine
end

