-- ==== Sys2Proof/Machine/Send.lean ====
section
/-! DEFINITION. Sending on the landings: routes, credits and elastic units (R378-R382, R392); and the elastic decrements
that wait for committed units (R256). -/

namespace Sys2Proof.Machine

/-- CRC-32 of IEEE 802.3 (R288). -/
def crc32 (bs : Bytes) : Nat := Nat.xor (bs.foldl (crcByteR 0xEDB88320) 0xFFFFFFFF) 0xFFFFFFFF

/-- R229, R391: the CRC of a word, and of a frame. -/
def crc16 (bs : Bytes) : Nat := bs.foldl (crcByteM 16 0x1021) 0xFFFF

/-- What landing `l` holds beside its registers. -/
def State.lnd (s : State) (l : Nat) : Land := SMap.get Land.empty s.land l

/-- Change what landing `l` holds. -/
def State.modLand (s : State) (l : Nat) (f : Land → Land) : State :=
  { s with land := SMap.upd Land.empty s.land l f }

/-- The logical landings. -/
def lands8 : List Nat := List.range 8

/-- The die's position (R495): as sampled by STRAPS. -/
def State.pos (s : State) : Nat := s.fld F.ID_STRAP.POS []

/-- STATE of a landing: 0 DOWN, 1 TRAIN, 2 UP, 3 FIXED, 4 LOOP. -/
def State.lstate (s : State) (l : Nat) : Nat := s.fld F.LND_STAT.STATE [l]

/-- The landing carries Torec traffic. -/
def State.torec (s : State) (l : Nat) : Bool := decide (2 ≤ s.lstate l) && s.fld F.LND_STAT.PROTO [l] == 0

/-- The landing carries CXL.mem traffic. -/
def State.cxlUp (s : State) (l : Nat) : Bool := s.lstate l == 2 && s.fld F.LND_STAT.PROTO [l] == 1

/-- The partner's ROLE (R387): 0 compute, 1 memory, 2 host, 3 I/O, 4 package management. -/
def State.prole (s : State) (l : Nat) : Nat := bits (s.word .LND_CAPP [l, 0]) 40 8

/-- Module index (R377). -/
def modIx (l m : Nat) : Nat := 4 * l + m

/-! ### Frames (R390-R393) -/

/-- Lane rate in GT/s of a rate code. -/
def rateOf (code : Nat) : Nat := if code = 0 then 16 else if code = 1 then 24 else 32

/-- The capacity in half modules of modules in given states (R376): x64 counts 2, x32 counts 1. -/
def State.capHalf (s : State) (l : Nat) : Nat :=
  (List.range 4).foldl (fun a m =>
    let st := s.fld F.LND_MOD.MST [l, m]
    a + (if st = 2 then 2 else if st = 3 ∨ st = 4 then 1 else 0)) 0

/-- UI per ccy (R389), where it is a whole number. -/
def State.uiPerCcy (s : State) (l : Nat) : Option Nat :=
  let r := rateOf (s.fld F.LND_STAT.RATE [l]) * 1000000
  let c := s.fld F.CLK_CCLK.CUR []
  if c = 0 then none else if r % c = 0 then some (r / c) else none

/-- C of R390: the bytes per ccy over the active data lanes, at a capacity. -/
def State.bytesAt (s : State) (l cap : Nat) : Nat := cap * 4 * (s.uiPerCcy l).getD 0

/-- S of R390. -/
def State.slotsAt (s : State) (l cap : Nat) : Nat := min 8 (s.bytesAt l cap / 64)

/-- S of a landing as it is striped now. -/
def State.slotsOf (s : State) (l : Nat) : Nat := s.slotsAt l (s.capHalf l)

/-- The partitions bound to a landing (R393). -/
def State.boundParts (s : State) (l : Nat) : List Nat :=
  nub ((List.range 2).filterMap (fun k =>
    if s.bit F.LND_FLCFG.VAL [l, k] then some (s.fld F.LND_FLCFG.PART [l, k]) else none))

/-- The slots bound to gateways of a landing: one past the highest slot number. -/
def State.slotsBound (s : State) (l : Nat) : Nat :=
  (s.boundParts l).foldl (fun a p => (s.part p).cls.foldl (fun a c => (List.range 2).foldl (fun a g =>
    if s.fld F.CHN_GWCFG.MODE [c, g] = 2 ∧ s.fld F.CHN_GWCFG.LAND [c, g] = l then max a (s.fld F.CHN_GWCFG.SLOT [c, g] + 1)
    else a) a) a) 0

/-- The control entries bound to partition `p`, on landings in fixed-latency mode. -/
def State.ctlEntries (s : State) (p : Nat) : List (Nat × Nat) :=
  (List.range 8).flatMap (fun l => (List.range 2).filterMap (fun k =>
    if s.bit F.LND_FLCFG.VAL [l, k] && s.fld F.LND_FLCFG.PART [l, k] == p && s.fld F.LND_STAT.STATE [l] == 3 then some (l, k) else none))

/-- The active modules in striping order, each with its first data lane and its width: the module order is that of the end
with the lower position (R377, R390). -/
def State.stripeOrder (s : State) (l : Nat) : List (Nat × Nat × Nat) :=
  let ms := (List.range 4).filterMap (fun m => match s.fld F.LND_MOD.MST [l, m] with
    | 2 => some (m, 0, 64) | 3 => some (m, 0, 32) | 4 => some (m, 32, 32) | _ => none)
  if s.pos ≤ s.fld F.LND_STAT.PPOS [l] then ms
  else (List.range 4).flatMap (fun q => ms.filter (fun x => s.fld F.LND_MOD.PMOD [l, x.1] == q))

/-- Bits `o`, `o + w`, `o + 2 w`, … of a number, `ui` of them: what one lane carries in the unit intervals of a ccy. -/
def laneShare (v o w ui : Nat) : Nat := (List.range ui).foldl (fun a u => a + b2n (v.testBit (o + w * u)) * 2 ^ u) 0

/-- R390, R391: what the lanes carry for a frame: the modules take its bytes in turn, each its capacity; the trailer travels on
the redundant lanes. -/
def State.laneBits (s : State) (l : Nat) (body : Bytes) (trailer : Nat) : List (Nat × Nat × Nat) :=
  let ui := (s.uiPerCcy l).getD 0
  let ms := s.stripeOrder l
  let v := leAt body 0 body.length
  let data := ms.foldl (fun (a : Nat × List (Nat × Nat × Nat)) x =>
    (a.1 + x.2.2 * ui, a.2 ++ (List.range x.2.2).map (fun j => (x.1, x.2.1 + j, laneShare v (a.1 + j) x.2.2 ui)))) (0, [])
  let red := ms.flatMap (fun x => (List.range (x.2.2 / 16)).map (fun j => (x.1, 64 + x.2.1 / 16 + j)))
  data.2 ++ (red.zip (List.range red.length)).map (fun x => (x.1.1, x.1.2, laneShare (trailer % 2 ^ 96) x.2 red.length ui))

/-- A frame leaves (R390, R391): slot words at their slots, elastic units in the positions they leave free, and the control
bits that are due in ccy `now`; `of` says whose words and bits it carries. (log 62, DESIGN CHOICE) -/
def State.frameOut (s : State) (l tag now : Nat) (of : Nat → Bool) : State :=
  let k := s.lnd l
  let c := s.bytesAt l (s.capHalf l)
  let n := s.slotsOf l
  let words := k.words.filter (fun w => of w.1)
  let free := (List.range n).filter (fun i => !words.any (fun w => w.2.1 == i))
  let units := (free.zip k.txu).map (fun x => (x.1, leBytes 2 (x.2.1 * 256 + k.rxSeq) ++ slice x.2.2 0 62))
  let cell := fun (i : Nat) =>
    match words.find? (fun w => w.2.1 == i) with
    | some w => (if w.2.2.2 then 3 else 2, slice w.2.2.1 0 64)
    | none => match units.find? (fun (u : Nat × Bytes) => u.1 == i) with
      | some u => (1, u.2)
      | none => (0, List.replicate 64 0)
  let cells := (List.range n).map cell
  let mine := fun (e : Nat × Nat × Nat) => of (s.fld F.LND_FLCFG.PART [l, e.1]) && decide (e.2.2 ≤ now)
  let ctl := k.ctl.foldl (fun a e => if mine e then Nat.lor a (2 ^ (24 * (e.1 % 2) + e.2.1 % 24)) else a) 0
  let vp := (cells.zip (List.range n)).foldl (fun a x => a + x.1.1 * 4 ^ x.2) 0
  let trailer := tag % 256 * 2 ^ 72 + s.fld F.LND_STAT.EPOCH [l] % 2 * 2 ^ 71 + vp * 2 ^ 48 + ctl
  let body := slice (cells.flatMap (·.2)) 0 c
  let fchk := crc16 (body ++ leBytes 10 trailer)
  let s := s.emit (.frame l ⟨cells.map (·.2), BitVec.ofNat 80 trailer, BitVec.ofNat 16 fchk⟩
    (s.laneBits l body (fchk * 2 ^ 80 + trailer)))
  s.modLand l (fun k => { k with
    words := k.words.filter (fun w => !of w.1), txu := k.txu.drop units.length, ctl := k.ctl.filter (fun e => !mine e) })

/-- The frames of a ccy of partition `p`, in schedule cycle `t`: one on each of its fixed-latency landings. -/
def State.framesOut (s : State) (p t : Nat) : State :=
  (nub ((s.ctlEntries p).map (·.1))).foldl (fun a l => a.frameOut l t (a.part p).pccy (· == p)) s

/-- A landing on which no schedule runs sends what it holds at once. -/
def State.flushLand (s : State) (l : Nat) : Nat → State
  | 0 => s
  | fuel + 1 =>
    let k := s.lnd l
    if s.lstate l ≠ 3 ∨ (k.txu.isEmpty ∧ k.ctl.isEmpty) ∨ (k.ctl.isEmpty ∧ s.slotsOf l = 0) ∨
        (s.boundParts l).any (fun p => (s.part p).live) then s
    else
      let x := s.takeFree
      State.flushLand (x.1.frameOut l (Config.frameTag x.2).toNat (k.ctl.foldl (fun a e => max a e.2.2) 0) (fun _ => true)) l fuel

/-- A control bit (0 stop, 8 join notice, 16 hold) of member `j`, or of this die, leaves on the partition's landings but one,
`delay` ccy from now (R243, R393). -/
def State.sendCtl (s : State) (p : Nat) (except : Option Nat) (base delay : Nat) (j : Option Nat) : State :=
  (s.ctlEntries p).foldl (fun a e =>
    if except = some e.1 then a
    else
      let m := j.getD (a.fld F.LND_FLCFG.SELF [e.1, e.2])
      let o := match base with | 0 => Out.stop e.1 p m | 8 => Out.join e.1 p m | _ => Out.hold e.1 p m
      let a := (a.emit o).modLand e.1 (fun k => { k with ctl := k.ctl ++ [(e.2, base + m, (a.part p).pccy + delay)] })
      a.flushLand e.1 1) s

/-! ### Sending -/

/-- Number of 16-byte units of a byte string. -/
def units16 (n : Nat) : Nat := cdiv n 16

/-- A header of this die (R379). -/
def State.hdr (s : State) (cls opc dst part gen len tag addr : Nat) : Header :=
  { cls := BitVec.ofNat 4 cls, opc := BitVec.ofNat 4 opc, src := BitVec.ofNat 6 s.pos, dst := BitVec.ofNat 6 dst,
    part := BitVec.ofNat 4 part, gen := BitVec.ofNat 16 gen, key := 0, len := BitVec.ofNat 5 len, poi := false,
    tag := BitVec.ofNat 12 tag, flg := false, addr := BitVec.ofNat 52 addr }

/-- A header as its 16 bytes (R379). -/
def headerBytes (h : Header) : Bytes :=
  leBytes 16 (h.cls.toNat * 2 ^ 124 + h.opc.toNat * 2 ^ 120 + h.src.toNat * 2 ^ 114 + h.dst.toNat * 2 ^ 108 +
    h.part.toNat * 2 ^ 104 + h.gen.toNat * 2 ^ 88 + h.key.toNat * 2 ^ 72 + h.len.toNat * 2 ^ 67 + b2n h.poi * 2 ^ 66 +
    h.tag.toNat * 2 ^ 53 + b2n h.flg * 2 ^ 52 + h.addr.toNat)

/-- R392: the bytes of a message cut into elastic units, each message beginning a unit, the last filled with zeros. (log 35, DESIGN CHOICE) -/
def elasticUnits : Nat → Bytes → List Bytes
  | 0, _ => []
  | n + 1, bs => if bs.isEmpty then [] else slice bs 0 62 :: elasticUnits n (bs.drop 62)

/-- A message leaves on a landing: as it is in ordinary mode, and in elastic units in fixed-latency mode (R392). -/
def State.launch (s : State) (l : Nat) (h : Header) (data : Bytes) : State :=
  let s := s.emit (.torec l h data)
  if s.lstate l = 3 then
    let s := (elasticUnits 16 (headerBytes h ++ data)).foldl (fun a u =>
      let k := a.lnd l
      let a := a.emit (.unit l k.txSeq k.rxSeq u)
      a.modLand l (fun k => { k with
        txSeq := (k.txSeq + 1) % 256, unacked := k.unacked ++ [(k.txSeq, u)], txu := k.txu ++ [(k.txSeq, u)] })) s
    s.flushLand l (s.lnd l).txu.length
  else s

/-- Credits a message takes (R382): none for a response. -/
def creditsOf (h : Header) (data : Bytes) : Nat := if 8 ≤ h.opc.toNat then 0 else units16 (16 + data.length)

/-- R382, R388: send a message on a landing once its class has the credits; a class that was not agreed is not sent. -/
def State.sendOn (s : State) (l : Nat) (h : Header) (data : Bytes) : State :=
  let c := h.cls.toNat
  if !s.torec l || !bitAt (s.fld F.LND_STAT.CLS [l]) c then s
  else
    let n := creditsOf h data
    let k := s.lnd l
    if n = 0 then s.launch l h data
    else if n ≤ listGet 0 k.cred c ∧ !k.txq.any (fun e => e.1.cls.toNat == c) then
      (s.modLand l (fun k => { k with cred := listMod k.cred c (· - n) })).launch l h data
    else s.modLand l (fun k => { k with txq := k.txq ++ [(h, data)] })

/-- R382: the waiting messages of a class leave in order while credits last. -/
def State.drainTx (s : State) (l c : Nat) : Nat → State
  | 0 => s
  | fuel + 1 =>
    let k := s.lnd l
    match k.txq.find? (fun e => e.1.cls.toNat == c) with
    | some (h, data) =>
      let n := creditsOf h data
      if n ≤ listGet 0 k.cred c then
        let i := (findIdx (fun (e : Header × Bytes) => e.1.cls.toNat == c) k.txq).getD 0
        let s := s.modLand l (fun k => { k with cred := listMod k.cred c (· - n), txq := k.txq.eraseIdx i })
        State.drainTx (s.launch l h data) l c fuel
      else s
    | none => s

/-- R382: the receive credits that a request took are given back, in a CRET of its class. -/
def State.giveBack (s : State) (l : Nat) (cls len : Nat) : State :=
  s.sendOn l (s.hdr cls 0xE (s.fld F.LND_STAT.PPOS [l]) 0 0 1 0 0) (leBytes 16 (units16 (16 + len)))

/-- R382: the credits that a request of a given header took. A read names the units it asks for, and carries none (R379). -/
def State.took (s : State) (l : Nat) (h : Header) : State :=
  let c := h.cls.toNat
  if 8 ≤ h.opc.toNat ∨ 6 ≤ c then s else s.giveBack l c (if c = 0 ∧ h.opc.toNat = 0 then 0 else 16 * h.len.toNat)

/-- R380: the landing toward a position, where its route is valid. -/
def State.routeOf (s : State) (q : Nat) : Option Nat :=
  let w := s.word .LND_ROUTE [q / 8]
  let l := bits w (8 * (q % 8)) 3
  if bitAt w (8 * (q % 8) + 7) && s.torec l then some l else none

/-- Send a message to a position. One with no valid route is not sent. (log 34, DESIGN CHOICE) -/
def State.sendTo (s : State) (h : Header) (data : Bytes) : State :=
  match s.routeOf h.dst.toNat with
  | some l => s.sendOn l h data
  | none => s

/-- R380: send a broadcast on every Torec landing whose partner is a compute die, other than `except`. -/
def State.broadcast (s : State) (h : Header) (data : Bytes) (except : Option Nat) : State :=
  (lands8.filter (fun l => s.torec l && s.prole l == 0 && except != some l)).foldl (fun a l => a.sendOn l h data) s

/-- R382: the credits of a request from die `src` are given back on the landing toward it. (log 63, DESIGN CHOICE) -/
def State.giveBackTo (s : State) (src cls len : Nat) : State :=
  match s.routeOf src with
  | some l => s.giveBack l cls len
  | none => s

/-- A SYN message (R386) from this die. -/
def State.syn (s : State) (opc dst : Nat) (data : Bytes) : State :=
  let h := s.hdr 4 opc dst 0 0 (units16 data.length) 0 0
  if dst = 0x3F then s.broadcast h data none else s.sendTo h data

/-! ### Elastic decrements that wait (R256, R258, R267) -/

/-- SYN_TALLY is applied and acknowledged (R258, R267), or, a decrement that the committed value does not cover, waits. (log 41, DEDUCED) -/
def State.takeTally (s : State) (x : HeldTally) : State :=
  let sp := x.h.part.toNat
  let gen := x.h.gen.toNat
  if x.amount < 0 && s.tallyAdmits x.tally sp gen (some x.h.src.toNat) && decide (s.tallyCommitted x.tally < x.amount.natAbs) then
    { s with tide := { s.tide with waits := s.tide.waits ++ [x] } }
  else (s.elasticTally x.tally x.amount sp gen (some x.h.src.toNat)).syn 9 x.h.src.toNat (leBytes 16 x.tally)

/-- R256: the decrements that wait apply where the committed value now covers them, in order of arrival. (log 41, DEDUCED) -/
def State.takeWaits (s : State) : State :=
  match s.tide.waits with
  | [] => s
  | w => w.foldl (fun a x => a.takeTally x) { s with tide := { s.tide with waits := [] } }

end Sys2Proof.Machine
end

