-- ==== Sys2Proof/Machine/Contain.lean ====
section
/-! DEFINITION. How a voyage stops and how a leg is restored (R81, R181, R226, R255, R441-R447), how a fault is contained
(R443), how a lane is bypassed (R127), and how the stores report ECC errors (R189, R190). -/

namespace Sys2Proof.Machine

/-! ### The physical mesh (R438) -/

/-- Logical mesh width and height of a grade (R4). -/
def meshSize (grade : Byte) : Nat × Nat :=
  if grade = 0x4C then (50, 24) else if grade = 0x48 then (45, 25) else (50, 25)

/-- The cluster index is enabled on this grade (R11, R12). -/
def State.enabled (s : State) (c : Nat) : Bool :=
  let m := meshSize s.fuses.grade
  decide (c % 50 < m.1) && decide (c / 50 < m.2)

/-- The `n`th number, from 0, that is not in a list. -/
def nthNotIn (skip : List Nat) : Nat → Nat → Nat → Nat
  | 0, v, _ => v
  | fuel + 1, v, n =>
    if skip.contains v then nthNotIn skip fuel (v + 1) n
    else if n = 0 then v else nthNotIn skip fuel (v + 1) (n - 1)

/-- R13, R377: the physical landing of a logical one: a die strapped T turns by half. -/
def State.physLand (s : State) (l : Nat) : Nat := if s.bit F.ID_STRAP.ORIENT [] then (l + 4) % 8 else l

/-- R13, R377: the physical module of a logical one. -/
def State.physMod (s : State) (m : Nat) : Nat := if s.bit F.ID_STRAP.ORIENT [] then 3 - m else m

/-- R377: the die edge of a logical landing, as a router's port: 0 north, 1 south, 2 east, 3 west. -/
def State.landEdge (s : State) (l : Nat) : Nat := match s.physLand l / 2 with | 0 => 0 | 1 => 2 | 2 => 1 | _ => 3

/-- R438: the physical column and row of a logical cluster. -/
def State.physOf (s : State) (c : Nat) : Nat × Nat :=
  (nthNotIn (s.fuses.dcol.map (·.toNat)) 64 0 (c % 50), nthNotIn [s.fuses.drow.toNat] 64 0 (c / 50))

/-- R408: the core power region of a cluster. -/
def State.regionOf (s : State) (c : Nat) : Nat := (s.physOf c).1 / 10 + 5 * ((s.physOf c).2 / 5)

/-- R423: droop in a region of partition `p` delays its start. -/
def State.droopHolds (s : State) (p : Nat) : Bool := SMap.get 0 s.pow.delayLeft p != 0

/-- R440: append a record to the field defect map, or post event 0x080F where it is full. -/
def State.logDefect (s : State) (c kind site row lane src : Nat) : State :=
  if 4096 ≤ s.fmap.length then s.post 0x080F 0x18 partNone c kind 0
  else
    let xy := s.physOf c
    let b := fun (n : Nat) => BitVec.ofNat 8 n
    { s with fmap := s.fmap ++ [⟨b kind, b xy.1, b xy.2, b site, b row, b lane, b src⟩] }

/-- R459: the core site of a logical core. -/
def State.siteOf (s : State) (c core : Nat) : Nat := bits (s.word .CLU_CMAP [c, core / 8]) (8 * (core % 8)) 7

/-! ### Ending and stopping a voyage -/

/-- Every cell idle, with its latched window (R81). -/
def idleCells (m : SMap Cell) : SMap Cell :=
  (m.map (fun e => (e.1, Cell.idle e.2.win))).filter (fun e => decide (e.2 ≠ Cell.idle 0))

/-- A gateway of cluster `c` is bound to a slot of a landing (R241). -/
def State.hasSlot (s : State) (c l slot : Nat) : Bool :=
  (List.range 2).any (fun g => s.fld F.CHN_GWCFG.MODE [c, g] == 2 && s.fld F.CHN_GWCFG.LAND [c, g] == l &&
    s.fld F.CHN_GWCFG.SLOT [c, g] == slot)

/-- R226: discard the words in a cluster's links and in the slip buffers of its gateways, counting each in DEND. -/
def State.dropLinks (s : State) (c : Nat) : State :=
  let slips := s.land.foldl (fun a e => a + (e.2.slip.filter (fun w => s.hasSlot c e.1 w.slot)).length) 0
  let s : State := if slips = 0 then s else { s with
    land := s.land.foldl (fun m e => SMap.upd Land.empty m e.1 (fun k =>
      { k with slip := k.slip.filter (fun w => !s.hasSlot c e.1 w.slot) })) s.land }
  let n := (s.clu c).links.length + slips
  if n = 0 then s else (s.incFld F.CHN_CERR.DEND [c] n).modClu c (fun k => { k with links := [] })

/-- Flags of one core, with their origin, in the flag word and, where the operation issued before the leg's first stroke,
in the snapshot (R137, R139, R529). -/
def State.setFlags (s : State) (c core f org issued : Nat) : State :=
  if f = 0 then s
  else
    let w := Nat.lor f (2 ^ org)
    let s := s.setWord .CLU_CFLAG [c, core] (Nat.lor (s.word .CLU_CFLAG [c, core]) w)
    match (s.clu c).snap with
    | some sn =>
      if issued < sn.cyc then s.setWord .CLU_CFSNAP [c, core] (Nat.lor (s.word .CLU_CFSNAP [c, core]) w) else s
    | none => s

/-- An effect completes. -/
def State.landEff (s : State) (c : Nat) (e : Pending) : State :=
  match e.eff with
  | .put store pos n v => s.putStore c store pos n v
  | .slot key v => s.modClu c (fun k => { k with slots := SMap.set 0 k.slots key v })
  | .flags core f org => s.setFlags c core f org e.issued
  | .capture core store addr =>
    -- R135: write the flag word and clear the bits written as 1, in both registers (R139)
    let w := s.word .CLU_CFLAG [c, core]
    let s := s.putStore c store (8 * addr) 64 w
    let s := s.setWord .CLU_CFLAG [c, core] 0
    let sn := s.word .CLU_CFSNAP [c, core]
    s.setWord .CLU_CFSNAP [c, core] (sn - Nat.land sn w)

/-- The effects of cluster `c` that are due by schedule cycle `t` complete, captures before flags of the same cycle. -/
def State.landDue (s : State) (c t : Nat) : State :=
  let due := (s.clu c).pend.filter (fun e => decide (e.due ≤ t))
  let rest := (s.clu c).pend.filter (fun e => !decide (e.due ≤ t))
  let isCap := fun (e : Pending) => match e.eff with | .capture _ _ _ => true | _ => false
  let s := s.modClu c (fun k => { k with pend := rest })
  let ordered := sortBy (fun e => 2 * e.due + (if isCap e then 0 else 1)) due
  ordered.foldl (fun a e => a.landEff c e) s

/-- The effects of operations issued before schedule cycle `t` complete, and every later one is dropped (R139, R443). -/
def State.landIssuedBefore (s : State) (c t : Nat) : State :=
  let s := s.modClu c (fun k => { k with pend := k.pend.filter (fun e => decide (e.issued < t)) })
  match (s.clu c).pend.map (·.due) |>.max? with
  | some u => s.landDue c u
  | none => s

/-- Every effect still in the pipelines of cluster `c` completes (R181). -/
def State.landAll (s : State) (c : Nat) : State :=
  match (s.clu c).pend.map (·.due) |>.max? with
  | some t => s.landDue c t
  | none => s

/-- The gangway writes of a cluster that wait for an idle bank cycle land (R186); P-store granules are shadowed first. -/
def State.flushWrites (s : State) (c : Nat) : State :=
  let s := (s.clu c).elw.foldl (fun a w =>
    let a := if w.1 = 2 then a.shadowCopy c (w.2.1 / 64) else a
    a.modClu c (fun k => (k.eccClear w.1 w.2.1 (w.2.1 + w.2.2.length)).setStore w.1 ((k.store w.1).store w.2.1 w.2.2))) s
  if (s.clu c).elw.isEmpty && (s.clu c).ebanks.isEmpty then s else s.modClu c (fun k => { k with elw := [], ebanks := [] })

/-- Every leg-lock of a cluster's berths becomes as a list says (R201); a FREE handle stays unlocked. -/
def State.setLocks (s : State) (c : Nat) (locked : List Nat) : State :=
  (List.range 128).foldl (fun a h =>
    let want := if locked.contains h && a.bit F.CLU_BERTH.VAL [c, h] then 1 else 0
    if a.fld F.CLU_BERTH.LLK [c, h] = want then a else a.setFld F.CLU_BERTH.LLK [c, h] want) s

/-- R255: the reservations of a partition's tallies return to 0. -/
def State.clearPend (s : State) (p : Nat) : State :=
  (s.tallyRange p).foldl (fun a t => if a.fld F.TDE_TAL.PEND [t] = 0 then a else a.setFld F.TDE_TAL.PEND [t] 0) s

/-- The pilot of a cluster issues and fetches nothing more. -/
def Cluster.quiet (k : Cluster) : Cluster :=
  { k with look := [], fetches := [], gwOk := [], legNow := none, tideNow := false, dec := { k.dec with ended := true, fault := none } }

/-- R181, R231: the voyage of partition `p` stops in error: what was issued completes, cells and open blocks are
discarded, and the front end closes the voyage. -/
def State.stopVoyage (s : State) (p : Nat) (e : VEnd) : State :=
  if (s.part p).live then
    let s := forClusters (s.part p).cls (fun c a =>
      let a := ((a.landAll c).flushWrites c).dropLinks c
      let a := a.modClu c (fun k => { k.quiet with cells := idleCells k.cells, blocks := [] })
      let a := a.setLocks c []
      let a := a.setFld F.CLU_STSTAT.SHA [c] 0
      -- R150: a pilot that has ended stays ENDED
      if a.pilot c = 5 then a else a.setFld F.CLU_PSTAT.STATE [c] 6) s
    let s := s.settleTallies p
    let s := s.clearPend p
    let s := s.modPart p (fun q =>
      { q with live := false, stopAt := none, tideAt := none, fin := some e, rems := [], recov := none, badPorts := [], newBad := [],
               hold := List.replicate 13 ⟨0, false, false⟩ })
    let s := s.setWord .FLT_PREC [p] 0
    -- R313: a partition in RESET has no record to write
    if s.fld F.FE_PSTAT.STATE [p] = 8 then s else s.toClose p
  else s

/-! ### Restoring a leg (R443) -/

/-- Registers of a cluster's block that a LEG stroke records: bases and walks, masks, loops and bindings (R168). -/
def inSnap (c a : Nat) : Bool :=
  let b := 0x02000000 + c * 0x4000
  (decide (b + 0x2000 ≤ a) && decide (a < b + 0x3700)) || (decide (b + 0x3840 ≤ a) && decide (a < b + 0x3900))

/-- The present words of those registers. -/
def State.snapRegs (s : State) (c : Nat) : SMap W64 := s.regs.filter (fun e => inSnap c e.1)

/-- Put recorded words back. -/
def State.restoreRegs (s : State) (c : Nat) (m : SMap W64) : State :=
  { s with regs := (m.filter (fun e => inSnap c e.1)).foldl (fun a e => SMap.put a e.1 e.2) (s.regs.filter (fun e => !inSnap c e.1)) }

/-- The walk positions as the registers show them. -/
def State.walkPos (s : State) (c : Nat) : SMap Nat :=
  (List.range 28).foldl (fun m w => SMap.set 0 m w (s.word .CLU_WPOS [c, w])) []

/-- The loop levels as the registers show them. -/
def State.loopsOf (s : State) (c : Nat) : List LoopSt :=
  (List.range 4).map (fun k =>
    ⟨s.bit F.CLU_PLOOP.ACT [c, k], s.fld F.CLU_PLOOP.START [c, k], s.fld F.CLU_PLOOP.LAST [c, k],
      s.fld F.CLU_PLOOP.CNT [c, k], s.fld F.CLU_PLOOP.IDX [c, k]⟩)

/-- Show loop levels in the registers. -/
def State.setLoops (s : State) (c : Nat) (ls : List LoopSt) : State :=
  (ls.zip (List.range 4)).foldl (fun a p =>
    a.setWord .CLU_PLOOP [c, p.2] (b2n p.1.act * 2 ^ 63 + p.1.start % 1024 * 2 ^ 42 + p.1.last % 1024 * 2 ^ 32 +
      p.1.cnt % 2 ^ 16 * 2 ^ 16 + p.1.idx % 2 ^ 16)) s

/-- The decode side that follows from the registers, at a program counter and a schedule cycle. -/
def State.decOf (s : State) (c pc cyc lock : Nat) : Dec :=
  { Dec.start pc with
    cyc := cyc
    loops := s.loopsOf c
    masks := (2 ^ 64 - 1) :: (List.range 7).map (fun k => s.word .CLU_PMASK [c, k + 1])
    binds := (List.range 8).map (fun k =>
      if s.bit F.CLU_PTBIND.VAL [c, k] then some (s.bit F.CLU_PTBIND.DIR [c, k], s.fld F.CLU_PTBIND.TALLY [c, k]) else none)
    pos := s.walkPos c
    lock := lock }

/-- R257: a tally returns to the leg's first stroke. -/
def State.rewindTally (s : State) (t : Nat) : State :=
  let sd := sext 32 (s.fld F.TDE_TLEG.SDELTA [t])
  let ui := s.fld F.TDE_TLEG.UINC [t]
  let v : Int := (s.fld F.TDE_TAL.VALUE [t] : Int) - sd
  let s := s.setFld F.TDE_TAL.VALUE [t] (min v.toNat 16777215)
  let s := s.setFld F.TDE_TAL.PEND [t] 0
  let s := s.setFld F.TDE_TCNT.PROD [t] (s.fld F.TDE_TCNT.PROD [t] - ui)
  let s := s.setFld F.TDE_TCNT.CONS [t] ((s.fld F.TDE_TCNT.CONS [t] : Int) - ((ui : Int) - sd)).toNat
  s.setWord .TDE_TLEG [t] 0

/-- R443 step 4: cluster `c` returns to the first stroke of the current leg; the P-store copy of R204 is left pending
(RST of CLU_STSTAT). (log 51, DEDUCED; log 71, DESIGN CHOICE) -/
def State.restoreCluster (s : State) (c : Nat) : State :=
  match (s.clu c).snap with
  | none => s
  | some sn =>
    let s := ((s.landIssuedBefore c sn.cyc).flushWrites c).dropLinks c
    let s := s.restoreRegs c sn.regs
    let s := s.setFld F.CLU_PSTAT.PC [c] sn.pc
    let s := s.setFld F.CLU_PSTAT.STATE [c] 2
    let s := s.setLocks c sn.llk
    let s := sn.crd.foldl (fun a e =>
      let cr := bits e.2 0 20
      let ac := bits e.2 44 20
      (a.setFld F.CLU_GWCRD.CRD [c, e.1] cr).setFld F.CLU_GWCRD.ACPT [c, e.1] ac) s
    let s := (List.range 64).foldl (fun a n => a.setWord .CLU_CFLAG [c, n] (a.word .CLU_CFSNAP [c, n])) s
    let s := (List.range 2).foldl (fun a g => a.setFld F.CHN_GWPTR.RPTR [c, g] (a.fld F.CHN_GWPTR.CPTR [c, g])) s
    let s := s.setFld F.CLU_STSTAT.RST [c] 1
    let lock := sn.llk.foldl (fun m h => Nat.lor m (2 ^ h)) 0
    let d := s.decOf c sn.pc sn.cyc lock
    s.modClu c (fun k =>
      { k.quiet with cells := idleCells k.cells, blocks := [], blanes := [], fbanks := [], dec := d })

/-- The schedule cycle of the LEG stroke that began the partition's current leg. -/
def State.curLeg (s : State) (p : Nat) : Nat :=
  match (s.part p).cls with
  | c :: _ => (match (s.clu c).snap with | some sn => sn.cyc | none => 0)
  | [] => 0

/-- R443 step 4 for a partition. Parity errors count towards R230 where the run that ends was itself a replay. -/
def State.restoreLeg (s : State) (p : Nat) : State :=
  let cyc := s.curLeg p
  let replayed := s.fld F.FLT_PREC.NREP [p] != 0
  let s := forClusters (s.part p).cls (fun c a => a.restoreCluster c) s
  -- the schedule's changes of the ccy are dropped, and the elastic ones land
  let mine := s.tnet.filter (fun e => s.fld F.TDE_TCFG.OWNER [e.1] == p)
  let s := { s with tnet := s.tnet.filter (fun e => s.fld F.TDE_TCFG.OWNER [e.1] != p) }
  let s := (s.tallyRange p).foldl (fun a t => a.rewindTally t) s
  let s := mine.foldl (fun a e => a.applyTally e.1 ⟨0, 0, e.2.einc, e.2.edec⟩) s
  s.modPart p (fun q =>
    { q with scyc := cyc, stopAt := none, tideAt := none, hold := List.replicate 13 ⟨0, false, false⟩,
             badPorts := if replayed then q.newBad else [], newBad := [] })

/-! ### Through-sailing partitions (R241, R393) -/

/-- The other members of a through-sailing partition, by member number (R393). -/
def State.members (s : State) (p : Nat) : List Nat :=
  let es := (List.range 8).flatMap (fun l => (List.range 2).filterMap (fun k =>
    if s.bit F.LND_FLCFG.VAL [l, k] && s.fld F.LND_FLCFG.PART [l, k] == p then some (l, k) else none))
  match es with
  | (l, k) :: _ =>
    let mpos := s.fld F.LND_FLCFG.MPOS [l, k]
    let self := s.fld F.LND_FLCFG.SELF [l, k]
    let pos := fun (j : Nat) => bits mpos (6 * j) 6
    (List.range 8).filter (fun j => pos j != pos self && (List.range j).all (fun i => pos i != pos j))
  | [] => []

/-- A voyage of the partition runs, and the partition sails through landings. -/
def State.sailsThrough (s : State) (p : Nat) : Bool := (s.part p).live && !(s.members p).isEmpty

/-! ### Containment (R443) -/

/-- The fault unit acts for partition `p`: it is enabled and a voyage runs. -/
def State.faultOn (s : State) (p : Nat) : Bool := s.bit F.FLT_CTL.EN [] && (s.part p).live

/-- R443 step 1: the partition is to stop 12 ccy from now, charged to the present leg, on every die it spans; `fin` where the
voyage is to end there. A stop already set stands. -/
def State.setStop (s : State) (p : Nat) (fin : Option VEnd) : State :=
  let leg := s.curLeg p
  s.modPart p (fun q => match q.recov with
    | some r => { q with recov := some { r with fin := match r.fin with | some e => some e | none => fin } }
    | none => { q with recov := some ⟨q.pccy + 12, leg, fin⟩ })

/-- R449: of two faults reported in one ccy FLT_LAST_0 keeps the one of the lower cluster index. -/
def State.keepsLast (s : State) (p c : Nat) : Bool :=
  let q := s.part p
  s.fld F.FLT_PREC.STATE [p] == 1 && (match q.recov with | some r => r.ccy == q.pccy + 12 | none => false) &&
    s.fld F.FLT_PREC.KIND [p] != 0 && s.fld F.FLT_LAST_0.PART [] == p && decide (s.fld F.FLT_LAST_0.CLIDX [] < c)

/-- R443 step 5: the fault in FLT_LAST and FLT_PREC. -/
def State.recordFault (s : State) (p c kind core row lane : Nat) : State :=
  if s.keepsLast p c then s
  else
    let s := s.setFlds [] [(F.FLT_LAST_0.KIND, kind), (F.FLT_LAST_0.PART, p), (F.FLT_LAST_0.CLIDX, c),
      (F.FLT_LAST_0.CORE, core), (F.FLT_LAST_0.ROW, row), (F.FLT_LAST_0.LANE, lane),
      (F.FLT_LAST_1.SCY, (s.part p).scyc % 2 ^ 32), (F.FLT_LAST_1.TIDE, s.period % 2 ^ 32)]
    s.setFlds [p] [(F.FLT_PREC.KIND, kind), (F.FLT_PREC.CLIDX, c)]

/-- R443, R449: the partition's recovery begins with a stop 12 ccy ahead, or the restore of one that has stopped starts
again. -/
def State.beginRecovery (s : State) (p : Nat) : State :=
  let st := s.fld F.FLT_PREC.STATE [p]
  if st = 0 then
    ((s.setStop p none).sendCtl p none 0 0 none).setFlds [p] [(F.FLT_PREC.STATE, 1), (F.FLT_PREC.ELAPSED, 0)]
  else if st = 1 then s
  else (forClusters (s.part p).cls (fun c a => a.setFld F.CLU_STSTAT.RST [c] 1) s).setFld F.FLT_PREC.STATE [p] 2

/-- FLT_CNT_0 counts a fault by its path (R460). -/
def State.countPath (s : State) (kind : Nat) : State :=
  match kind with
  | 1 | 2 | 3 => s.incFld F.FLT_CNT_0.RESID [] 1
  | 4 | 8 => s.incFld F.FLT_CNT_0.ECC [] 1
  | 5 | 6 => s.incFld F.FLT_CNT_0.LINK [] 1
  | 7 => s.incFld F.FLT_CNT_0.TALLY [] 1
  | _ => s

/-- R443: fault `kind` (of FLT_LAST) of partition `p`, found in cluster `c`; `cause` is FCAUSE of CLU_CSITE, 0 for a fault
that fences no cluster. (log 51, DEDUCED) -/
def State.contain (s : State) (p c kind core row lane cause : Nat) (rem : Remedy) : State :=
  if s.faultOn p then
    let s := if cause = 0 then s else (s.setFld F.CLU_CSITE.FEN [c] 1).setFld F.CLU_CSITE.FCAUSE [c] cause
    let s := ((s.recordFault p c kind core row lane).beginRecovery p).countPath kind
    let s := s.modPart p (fun q => { q with rems := if q.rems.contains rem then q.rems else q.rems ++ [rem] })
    s.post 0x0801 0x18 p c kind p
  else s

/-- R447: how a voyage ends that recovery ends: the cluster of the fault, or none where this die found none, and the schedule
cycle of the stop. -/
def State.faultEnd (s : State) (p fcode : Nat) : VEnd :=
  let c := if s.fld F.FLT_PREC.KIND [p] = 0 then 0xFFFFFFFF else s.fld F.FLT_PREC.CLIDX [p]
  let t := if s.fld F.FLT_PREC.STATE [p] ≤ 1 then (s.part p).scyc else (s.part p).stopCyc
  ⟨0x13, c, fcode, 0, 0, t⟩

/-- The fences of a recovery end with it, but for those that are for good. -/
def State.unfence (s : State) (p : Nat) : State :=
  forClusters (s.part p).cls (fun c a =>
    if a.bit F.CLU_CSITE.FEN [c] && !a.bit F.CLU_CSITE.PERM [c] then
      a.setFlds [c] [(F.CLU_CSITE.FEN, 0), (F.CLU_CSITE.FCAUSE, 0)]
    else a) s

/-- R447: the voyage of partition `p` ends with STATUS 0x13. -/
def State.endFault (s : State) (p fcode : Nat) : State := (s.unfence p).stopVoyage p (s.faultEnd p fcode)

/-- The voyage of partition `p` is to end: at the stop 12 ccy ahead, or at once where it has stopped already (R443, R452). -/
def State.endAhead (s : State) (p : Nat) (e : VEnd) : State :=
  if s.voyaging p then
    let s := if s.fld F.FLT_PREC.STATE [p] = 0 then s.sendCtl p none 0 0 none else s
    (s.setStop p (some e)).setFld F.FLT_PREC.STATE [p] 1
  else (s.unfence p).stopVoyage p e

/-- R442: the stop that is to fall is charged to the leg that began at schedule cycle `leg`. -/
def State.chargeLeg (s : State) (p leg : Nat) : State :=
  s.modPart p (fun q => match q.recov with
    | some r => { q with recov := some { r with leg := min r.leg leg } }
    | none => q)

/-- The stop of a recovery is due in the present ccy. -/
def Part.recDue (q : Part) : Bool := match q.recov with | some r => decide (r.ccy ≤ q.pccy) | none => false

/-- R442, R443, R449: the stop of a recovery falls: an ABORT in progress proceeds; a voyage that is to end ends; a fault of a
leg that has committed ends it with FCODE 0x43; else the leg is restored. -/
def State.recover (s : State) (p : Nat) : State :=
  let q := s.part p
  match q.recov with
  | none => s
  | some r =>
    let abort : Option VEnd := match q.stopAt with
      | some (_, e) => if e.status = 0x10 ∨ e.status = 0x11 then none else some e
      | none => none
    let s := s.modPart p (fun q => { q with recov := none, stopCyc := q.scyc })
    match abort, r.fin with
    | some e, _ => (s.unfence p).stopVoyage p e
    | none, some e => (s.unfence p).stopVoyage p { e with fscy := if e.status = 0x13 then q.scyc else e.fscy }
    | none, none =>
      if r.leg < s.curLeg p then s.endFault p 0x43
      else (s.restoreLeg p).setFld F.FLT_PREC.STATE [p] 2

/-- R228, R230, R445: port `port` of cluster `c` is in error in this run of the leg; one that was so in the replay before as
well fences the router. -/
def State.portError (s : State) (p c port : Nat) : State :=
  let s := s.modPart p (fun q => if q.newBad.contains (c, port) then q else { q with newBad := q.newBad ++ [(c, port)] })
  if (s.part p).badPorts.contains (c, port) then s.setFld F.CHN_RCFG.RFEN [c] 1 else s

/-- R230, R445: a link fault found in cluster `c`: no remedy but for the routers that have been fenced. -/
def State.linkFault (s : State) (p c : Nat) : State :=
  let s := s.contain p c 5 0 0 0 4 .none
  if s.faultOn p then
    let bad := (s.part p).cls.filter (fun d => s.bit F.CHN_RCFG.RFEN [d] && !s.bit F.CLU_CSITE.PERM [d])
    s.modPart p (fun q => { q with rems := q.rems ++ (bad.map Remedy.fence).filter (fun r => !q.rems.contains r) })
  else s

/-- R127, R441, R445: a residue failure in a lane of a row. The fault unit bypasses the lane, or marks the core bad, where it
acts at all. -/
def State.laneFault (s : State) (c core row phys : Nat) : State :=
  let p := s.partOf c
  let byp := if row = 0 then F.CLU_LMAP.BYP_A else F.CLU_LMAP.BYP_B
  let s := s.incFld (if row = 0 then F.CLU_CSTAT.RESA else F.CLU_CSTAT.RESB) [c, core] 1
  if !s.faultOn p then s
  else if s.fld byp [c, core] = 0xF ∧ phys < 8 then
    let s := s.contain p c 1 core row phys 1 .none
    let s := s.setFld byp [c, core] phys
    let s := s.logDefect c 2 (s.siteOf c core) row phys 2
    s.post 0x0804 0x18 p c core (row * 16 + phys)
  else
    let s := s.contain p c 1 core row phys 1 (.remap c core)
    s.setFld F.CLU_LMAP.CBAD [c, core] 1

/-- R127: a residue failure in an FMA unit or, where `row` is none, in the post unit. -/
def State.coreFault (s : State) (c core : Nat) (row : Option Nat) : State :=
  let p := s.partOf c
  let s := match row with
    | some 0 => s.incFld F.CLU_CSTAT.RESA [c, core] 1
    | some _ => s.incFld F.CLU_CSTAT.RESB [c, core] 1
    | none => s.incFld F.CLU_CSTAT.RESP [c, core] 1
  if !s.faultOn p then s
  else
    let s := s.contain p c (match row with | some _ => 2 | none => 3) core (row.getD 0) 0 2 (.remap c core)
    s.setFld F.CLU_LMAP.CBAD [c, core] 1

/-! ### ECC of the stores (R188-R190) -/

/-- Count one ECC error of a store word and record where it was. (log 17, DESIGN CHOICE) -/
def State.countEcc (s : State) (c store word : Nat) (ue : Bool) : State :=
  let line := word / 4
  let s := s.incFld (if ue then F.CLU_SERR.UE else F.CLU_SERR.CE) [c, store] 1
  let s := (s.setFld F.CLU_SERR.LLINE [c, store] line).setFld F.CLU_SERR.SYN [c, store]
    (Config.syndrome (store * 2 ^ 20 + word) (s.word .CLU_SERR [c, store])).toNat
  let s := match s.berthAt c store (8 * word) with
    | some h => s.incFld (if ue then F.CLU_BCNT.UE else F.CLU_BCNT.CE) [c, h] 1
    | none => s
  if ue then s.post 0x0202 0x20 (if s.inPart c then s.partOf c else partNone) c store line
  else s.modClu c (fun k => { k with wb := if k.wb.contains (store, line) then k.wb else k.wb ++ [(store, line)] })

/-- The words of a byte range of a store that are in error, with their kind. -/
def Cluster.eccIn (k : Cluster) (store lo hi : Nat) : List (Nat × Nat) :=
  (k.ecc.filter (fun e => e.1 / 2 ^ 20 == store && decide (lo / 8 ≤ e.1 % 2 ^ 20) && decide (8 * (e.1 % 2 ^ 20) < hi))).map
    (fun e => (e.1 % 2 ^ 20, e.2))

/-- Mark a berth poisoned (R190, R195). -/
def State.poison (s : State) (c h : Nat) : State :=
  (s.setFld F.CLU_BERTH.PSN [c, h] 1).setFld F.CLU_BERTH.RES [c, h] 0

/-- R190: an error that no replay repairs: the berth, where one holds it, is poisoned, the cluster fenced, and the voyage ends with STATUS 0x12. -/
def State.lostUe (s : State) (p c : Nat) (h : Option Nat) : State :=
  let s := match h with | some h => s.poison c h | none => s
  ((s.setFld F.CLU_CSITE.FEN [c] 1).setFld F.CLU_CSITE.FCAUSE [c] 3).endAhead p ⟨0x12, 0xFFFFFFFF, 0, 0, 0, 0⟩

/-- R190: what the die does about an uncorrectable error that a scheduled access, a stroke fetch or the restore finds. (log 84, DEDUCED) -/
def State.scheduledUe (s : State) (c store word : Nat) : State :=
  let p := s.partOf c
  if store = 4 then s.contain p c 4 0 0 0 3 (.reload c none)
  else if store = 3 then s.lostUe p c (s.berthAt c 2 (8 * word))
  else
    let h := s.berthAt c store (8 * word)
    if store = 2 ∧ (s.clu c).dirty.contains (word / 8) then s.contain p c 4 0 0 0 3 .none
    else
      match h with
      | some h =>
        if store ≤ 1 ∧ (s.clu c).imgs.contains h then (s.poison c h).contain p c 4 0 0 0 3 (.reload c (some h))
        else s.lostUe p c (some h)
      | none => s.contain p c 4 0 0 0 3 .none

/-- R189, R190: a scheduled read of bytes `lo` to `hi - 1` of a store finds its errors; `true` where one cannot be
corrected. -/
def State.eccRead (s : State) (c store lo hi : Nat) : State × Bool :=
  ((s.clu c).eccIn store lo hi).foldl (fun a e =>
    if e.2 = 2 then ((a.1.countEcc c store e.1 true).scheduledUe c store e.1, true)
    else (a.1.countEcc c store e.1 false, a.2)) (s, false)

end Sys2Proof.Machine
end

