-- ==== Sys2Proof/Machine/Walk.lean ====
section
/-! DEFINITION. Walks (R170-R174, R177), the accesses of a stroke's fields and their checks (R176), the sailing of a schedule
cycle (R222, R223) and the bank rule (R185). -/

namespace Sys2Proof.Machine

/-- A walk's configuration (R171). -/
structure WalkCfg where
  berth : Nat
  sberth : Nat
  sen : Bool
  gen : Bool
  gunit : Nat
  gtally : Nat
  org : Nat
  y0 : Int
  x0 : Int
  hlim : Nat
  wlim : Nat
  lstep : Nat
  dims : List (Nat × Int × Int × Int)
  deriving DecidableEq, Repr

/-- One dimension of a walk. -/
def walkDim (w : Nat) : Nat × Int × Int × Int :=
  (bits w 52 12, sext 21 (bits w 31 21), sext 8 (bits w 23 8), sext 8 (bits w 15 8))

/-- The configuration in walk registers of cluster `c`. -/
def State.walkCfg (s : State) (c w : Nat) : WalkCfg :=
  let cf := s.word .CLU_WCFG [c, w]
  let bx := s.word .CLU_WBOX [c, w]
  { berth := bits cf 57 7, sberth := bits cf 50 7, sen := bitAt cf 49, gen := bitAt cf 48, gunit := bits cf 44 4,
    gtally := bits cf 28 16, org := bits cf 0 20, y0 := sext 12 (bits bx 52 12), x0 := sext 12 (bits bx 40 12),
    hlim := bits bx 28 12, wlim := bits bx 16 12, lstep := bits bx 0 16,
    dims := [walkDim (s.word .CLU_WDIM0 [c, w]), walkDim (s.word .CLU_WDIM1 [c, w]), walkDim (s.word .CLU_WDIM2 [c, w]),
      walkDim (s.word .CLU_WDIM3 [c, w]), walkDim (s.word .CLU_WDIM4 [c, w])] }

/-- Index of dimension `d` in a position word (CLU_WPOS). -/
def posIdx (pos d : Nat) : Nat := bits pos (12 * d) 12

/-- R172: sums of index times step over the dimensions: address, y and x. -/
def walkSums (pos : Nat) : Nat → List (Nat × Int × Int × Int) → Int × Int × Int
  | _, [] => (0, 0, 0)
  | d, (_, a, y, x) :: r =>
    let i : Int := posIdx pos d
    let t := walkSums pos (d + 1) r
    (i * a + t.1, i * y + t.2.1, i * x + t.2.2)

/-- The box of R172 is in use. -/
def WalkCfg.boxed (k : WalkCfg) : Bool := k.hlim != 0 || k.wlim != 0

/-- R172: the element address, and whether the position is padded, for a base register word and a lane. -/
def WalkCfg.point (k : WalkCfg) (base lane pos : Nat) : Int × Bool :=
  let t := walkSums pos 0 k.dims
  let a : Int := k.org + sext 21 (bits base 0 21) + (lane * k.lstep : Nat) + t.1
  let y : Int := k.y0 + sext 12 (bits base 52 12) + t.2.1
  let x : Int := k.x0 + sext 12 (bits base 40 12) + t.2.2
  (a, (k.hlim != 0 && (decide (y < 0) || decide ((k.hlim : Int) ≤ y))) ||
      (k.wlim != 0 && (decide (x < 0) || decide ((k.wlim : Int) ≤ x))))

/-- R173: the next position. -/
def walkStep (pos : Nat) : Nat → List (Nat × Int × Int × Int) → Nat
  | _, [] => 0
  | d, (cnt, _) :: r =>
    let i := posIdx pos d
    if i < cnt then bits pos (12 * (d + 1)) (48 - 12 * d) * 2 ^ (12 * (d + 1)) + (i + 1) * 2 ^ (12 * d)
    else walkStep pos (d + 1) r

/-- R173. -/
def WalkCfg.next (k : WalkCfg) (pos : Nat) : Nat := walkStep pos 0 k.dims

/-- Positions from position zero (R178). -/
def walkIndex (pos : Nat) : Nat → List (Nat × Int × Int × Int) → Nat
  | _, [] => 0
  | d, (cnt, _) :: r => posIdx pos d + (cnt + 1) * walkIndex pos (d + 1) r

/-- The register of base selector `k`, in the order of R179. -/
def baseReg (k : Nat) : RegId :=
  match k with
  | 0 => .CLU_BXA | 1 => .CLU_BWA | 2 => .CLU_BDA | 3 => .CLU_BXB | 4 => .CLU_BWB | 5 => .CLU_BDB | 6 => .CLU_BPS
  | _ => .CLU_BPD

/-- The logical cores of a mask. -/
def coresOf (mask : Nat) : List Nat := (List.range 64).filter (bitAt mask)

/-! ### The fields of a stroke -/

/-- R154. -/
def predTrue (p first last : Nat) : Bool :=
  let lm := p % 16
  if p % 32 = 0 then false
  else if bitAt p 4 then Nat.land lm last == lm else Nat.land lm first == lm

/-- Kind of a stroke (R151). -/
def strokeKind (w : Nat) : Nat := bits w 254 2
/-- Opcode of a control stroke (R162). -/
def strokeCop (w : Nat) : Nat := bits w 248 6
/-- Tile tag (R151). -/
def strokeTag (w : Nat) : Nat := bits w 235 16
/-- Row field of row 0 (A) or 1 (B). -/
def rowField (w row : Nat) : Nat := bits w (if row = 0 then 136 else 48) 88
/-- Post field. -/
def postField (w : Nat) : Nat := bits w 0 48
/-- OP of a row field. -/
def rowOp (r : Nat) : Nat := bits r 85 3

/-- Formats that a lane-form field names, with FP64 standing for a reserved code. -/
def fmtD (code : Nat) : Fmt := (fmtOf code).getD .fp64

/-- Resolved cell or slot index: a base plus, where the bit is set, the index of loop level 0. -/
def resolved (base : Nat) (ix : Bool) (idx0 m : Nat) : Nat := (base + (if ix then idx0 else 0)) % m

/-- One operand access of a stroke: the field it belongs to, its walk and base register, its lanes and cores, the stores it
may use, its direction, element width, elements and alignment, whether it is of an MX format whose scale is accessed
beside it, the schedule cycles after issue at which it meets its bank, and whether it books that bank (R185). -/
structure Access where
  field : Nat
  walk : Nat
  base : Nat
  lanes : List Nat
  mask : Nat
  stores : List Nat
  wr : Bool
  width : Nat
  n : Nat
  align : Nat
  scale : Bool
  off : Nat
  book : Bool
  deriving DecidableEq, Repr

/-- Eight lanes. -/
def lanes8 : List Nat := [0, 1, 2, 3, 4, 5, 6, 7]

/-- Even cores of a mask (R121). -/
def evenMask (m : Nat) : Nat := Nat.land m 0x5555555555555555

/-- The accesses of a row field (R156-R159). -/
def rowAccesses (r row mask first last : Nat) : List Access :=
  let f := row + 1
  let op := rowOp r
  let fa := fmtD (bits r 81 4)
  let fb := fmtD (bits r 77 4)
  let df := fmtD (bits r 53 4)
  let n := pairElems fa fb
  let acc : List Access :=
    if op = 1 ∨ op = 3 then
      [⟨f, row * 12 + bits r 44 2, row * 3, [0], mask, [1], false, fa.width, n, n, fa.isMx, 0, true⟩] ++
      (if predTrue (bits r 30 5) first last then
        [⟨f, row * 12 + 4 + bits r 42 2, row * 3 + 1, lanes8, mask, [0], false, fb.width, n, n, fb.isMx, 0, false⟩]
       else [])
    else []
  let drn : List Access :=
    if (op = 2 ∨ op = 3) ∧ predTrue (bits r 15 5) first last = true then
      let w := row * 12 + 8 + bits r 40 2
      if df.isMx then
        [⟨f, w, row * 3 + 2, if row = 0 then [0] else [], evenMask mask, [1, 2], true, df.width, 32, 32, true, 11, true⟩]
      else [⟨f, w, row * 3 + 2, lanes8, mask, [1, 2], true, df.width, 1, 1, false, 9, true⟩]
    else []
  let slot : List Access :=
    if op = 6 then
      let w := if bitAt r 83 then 64 else 32
      if bitAt r 84 then
        [⟨f, row * 12 + 8 + bits r 75 2, row * 3 + 2, [0], mask, [1, 2], true, w, 1, 1, false, 3, true⟩]
      else [⟨f, row * 12 + bits r 75 2, row * 3, [0], mask, [1], false, w, 1, 1, false, 0, true⟩]
    else []
  let xfer : List Access :=
    if op = 7 then
      let w := row * 12 + 8 + bits r 77 2
      [⟨f, w, row * 3 + 2, lanes8, mask, [2], !bitAt r 84, 192, 1, 1, false, if bitAt r 84 then 0 else 6, true⟩]
    else []
  acc ++ drn ++ slot ++ xfer

/-- The post operations of R161 that exist. -/
def popValid (pop : Nat) : Bool :=
  decide (pop ≤ 2) || (decide (8 ≤ pop) && decide (pop ≤ 11)) || (decide (0x10 ≤ pop) && decide (pop ≤ 0x16)) ||
    (decide (0x18 ≤ pop) && decide (pop ≤ 0x1B)) || (decide (0x20 ≤ pop) && decide (pop ≤ 0x23)) ||
    (decide (0x28 ≤ pop) && decide (pop ≤ 0x2C)) || (decide (0x30 ≤ pop) && decide (pop ≤ 0x32)) || pop == 0x3F

/-- R132: source elements, result elements and latency of a post operation. -/
def popRate (pop : Nat) (f64 : Bool) : Nat × Nat × Nat :=
  if pop = 1 then (16, 16, 3)
  else if pop = 2 then (32, 32, 6)
  else if pop ≤ 11 then (if f64 then (4, 4, 6) else (16, 16, 4))
  else if pop ≤ 0x1B then (16, 16, 2)
  else if pop ≤ 0x21 then (if f64 then (1, 1, 24) else (2, 2, 12))
  else if pop ≤ 0x23 then (if f64 then (1, 1, 18) else (4, 4, 10))
  else if pop = 0x28 then (16, 16, 2)
  else if pop ≤ 0x2C then (4, 4, 14)
  else if pop = 0x30 then (16, 1, 8)
  else if pop ≤ 0x32 then (16, 1, 4)
  else (0, 1, 1)

/-- The number of sources a post operation reads. -/
def popSources (pop : Nat) : Nat :=
  if pop = 0x3F then 0
  else if pop = 0x0B then 3
  else if (8 ≤ pop ∧ pop ≤ 0x1B) ∨ pop = 0x20 then 2
  else 1

/-- The accesses of a post field (R160). -/
def postAccesses (q mask first last : Nat) : List Access :=
  let pop := bits q 42 6
  if pop = 0 ∨ popValid pop = false ∨ predTrue (bits q 13 5) first last = false then []
  else
    let s1 := fmtD (bits q 38 4)
    let s2 := fmtD (bits q 34 4)
    let pt := fmtD (bits q 30 4)
    let rate := popRate pop (pt == .fp64)
    let src := fun (wf : Nat) (f : Fmt) =>
      Access.mk 3 (24 + bits q wf 2) 6 [0] mask [0, 1, 2] false f.width rate.1 1 f.isMx 0 true
    let ns := popSources pop
    let sources := (if 1 ≤ ns then [src 24 s1] else []) ++ (if 2 ≤ ns then [src 22 s2] else []) ++
      (if 3 ≤ ns then [src 20 pt] else [])
    let res : Access :=
      if pop = 0x3F then ⟨3, 24 + bits q 18 2, 7, [0], mask, [1, 2], true, 64, 1, 1, false, 1, true⟩
      else ⟨3, 24 + bits q 18 2, 7, [0], mask, [1, 2], true, pt.width, rate.2.1, if pop = 2 then 32 else 1,
        pop == 2, rate.2.2, true⟩
    sources ++ [res]

/-- Every access of a compute stroke. -/
def strokeAccesses (w mask first last : Nat) : List Access :=
  rowAccesses (rowField w 0) 0 mask first last ++ rowAccesses (rowField w 1) 1 mask first last ++
    postAccesses (postField w) mask first last

/-- The walks a stroke uses, each once. -/
def walksUsed (as : List Access) : List Nat := nub (as.map (·.walk))

/-! ### Checks of a position (R176) -/

/-- Bit range of an access at element address `a` within its store. -/
def State.elemPos (s : State) (c h width : Nat) (a : Int) : Nat := 8 * s.berthBase c h + (a * width).toNat

/-- R176 for a berth: not resident, wrong store, leg-locked for a write (10), or outside it (9). -/
def State.checkBerth (s : State) (c h : Nat) (stores : List Nat) (locked : Bool) (width : Nat) (a : Int) (n : Nat) :
    Option Nat :=
  if !s.resident c h then some 10
  else if !stores.contains (s.berthStore c h) then some 10
  else if locked then some 10
  else if a < 0 ∨ (8 * s.berthLen c h : Int) < (a + n) * width then some 9
  else none

/-- R176: the code of the first check that a position fails. (log 50, DEDUCED) -/
def State.checkPoint (s : State) (c lock : Nat) (k : WalkCfg) (x : Access) (a : Int) : Option Nat :=
  match s.checkBerth c k.berth x.stores (x.wr && bitAt lock k.berth) x.width a x.n with
  | some e => some e
  | none =>
    if a % x.align ≠ 0 then some 9
    else if x.scale && k.sen then
      s.checkBerth c k.sberth x.stores (x.wr && bitAt lock k.sberth) 8 (a / 32) ((a + x.n - 1) / 32 - a / 32 + 1).toNat
    else none

/-- The lines of a store that a bit range touches. -/
def linesOf (pos n : Nat) : List Nat :=
  (List.range ((pos + n - 1) / 256 - pos / 256 + 1)).map (· + pos / 256)

/-- Checks and lines of one access: the lowest code found, and (store, line) pairs. -/
def State.checkAccess (s : State) (c lock pos : Nat) (k : WalkCfg) (x : Access) : Option Nat × List (Nat × Nat) :=
  if x.wr && k.boxed then (some 9, [])
  else
    (coresOf x.mask).foldl (fun acc core =>
      let base := s.word (baseReg x.base) [c, core]
      x.lanes.foldl (fun acc lane =>
        let pt := k.point base lane pos
        if pt.2 then acc
        else
          match s.checkPoint c lock k x pt.1 with
          | some e => (some (match acc.1 with | some f => min e f | none => e), acc.2)
          | none =>
            let st := s.berthStore c k.berth
            let ls := (linesOf (s.elemPos c k.berth x.width pt.1) (x.n * x.width)).map (fun l => (st, l))
            let ls := if x.scale && k.sen then
                ls ++ (linesOf (s.elemPos c k.sberth 8 (pt.1 / 32)) (8 * ((pt.1 + x.n - 1) / 32 - pt.1 / 32 + 1).toNat)).map
                  (fun l => (s.berthStore c k.sberth, l))
              else ls
            (acc.1, ls.foldl (fun l y => if l.contains y then l else y :: l) acc.2)) acc) (none, [])

/-! ### Sailings (R220-R223) -/

/-- The used segments of a cluster's router: first entry, period, periods (0 without end), return bit. -/
def State.segs (s : State) (c : Nat) : List (Nat × Nat × Nat × Bool) :=
  if s.bit F.CHN_SEG.VAL [c, 0] then
    ((List.range 8).filter (fun k => s.bit F.CHN_SEG.VAL [c, k])).map (fun k =>
      (s.fld F.CHN_SEG.FIRST [c, k], s.fld F.CHN_SEG.LEN [c, k], s.fld F.CHN_SEG.REPS [c, k], s.bit F.CHN_SEG.RET [c, k]))
  else []

/-- The number of the used segment that stands at a place of that list. -/
def State.segNo (s : State) (c i : Nat) : Nat := listGet 0 ((List.range 8).filter (fun k => s.bit F.CHN_SEG.VAL [c, k])) i

/-- Schedule cycles from the start of segment 0 to its return, where a segment returns. -/
def segPeriod : List (Nat × Nat × Nat × Bool) → Option Nat
  | [] => none
  | (_, len, reps, ret) :: r =>
    if reps = 0 then none
    else if ret then some (len * reps) else (segPeriod r).map (· + len * reps)

/-- R223: the segment (by place in the list), entry and iteration used `t` cycles after segment 0 began. -/
def segAt : Nat → List (Nat × Nat × Nat × Bool) → Nat → Option (Nat × Nat × Nat)
  | _, [], _ => none
  | k, (first, len, reps, _) :: r, t =>
    if len = 0 then none
    else if reps = 0 ∨ t < len * reps then some (k, first + t % len, t / len)
    else segAt (k + 1) r (t - len * reps)

/-- R223: segment, entry and iteration of schedule cycle `t`. -/
def State.sailAt (s : State) (c t : Nat) : Option (Nat × Nat × Nat) :=
  let g := s.segs c
  match segPeriod g with
  | some per => if per = 0 then none else segAt 0 g (t % per)
  | none => segAt 0 g t

/-- The sailing entry of schedule cycle `t`, with its iteration; none is an empty sailing. -/
def State.sailing (s : State) (c t : Nat) : Option (Nat × Nat × Nat) :=
  match s.sailAt c t with
  | some (_, e, i) => some ((SMap.get 0 (s.clu c).sail e).toNat, i, e)
  | none => none

/-- R222: the granule of a launch or catch: offset, step and wrap of an entry at an iteration. -/
def sailGranule (ent iter offLo stepLo : Nat) : Nat :=
  bits ent offLo 12 + iter % (bits ent 38 12 + 1) * bits ent stepLo 12

/-- The granule a sailing launches, as berth and granule (R220). -/
def sailLaunch (ent iter : Nat) : Option (Nat × Nat) :=
  if bitAt ent 112 then some (bits ent 105 7, sailGranule ent iter 93 81) else none

/-- The granule a sailing catches into. -/
def sailCatch (ent iter : Nat) : Option (Nat × Nat) :=
  if bits ent 113 3 = 0 then none else some (bits ent 74 7, sailGranule ent iter 62 50)

/-- Bookings of the sailing of schedule cycle `t` (R185, R224). -/
def State.sailBooks (s : State) (c t : Nat) : List Book :=
  match s.sailing c t with
  | none => []
  | some (e, i, _) =>
    let mk := fun (wr : Bool) (x : Option (Nat × Nat)) =>
      match x with
      | some (h, g) =>
        let l := (s.berthBase c h + 64 * g) / 32
        [Book.mk t (s.berthStore c h) l wr, Book.mk t (s.berthStore c h) (l + 1) wr]
      | none => []
    mk false (sailLaunch e i) ++ mk true (sailCatch e i)

/-- R185: two bookings of one cycle that one bank cannot serve. -/
def bookClash (x y : Book) : Bool :=
  x.cyc == y.cyc && x.store == y.store && x.line % storeBanks x.store == y.line % storeBanks y.store &&
    (x.line != y.line || x.wr != y.wr)

/-- Banks of a store that the scheduled accesses of the present ccy take (R185, R186): none in a ccy that is held, or while
no voyage runs; B-slice fetches are scheduled too (R175). -/
def State.schedBanks (s : State) (c st : Nat) : List Nat :=
  let p := s.partOf c
  if s.inPart c && s.voyaging p then
    let q := s.part p
    let held := match q.hold with | h :: _ => h.causes != 0 | [] => false
    (if held then [] else (((s.clu c).dec.books.filter (fun b => b.cyc == q.scyc)) ++ s.sailBooks c q.scyc).filterMap (fun b =>
      if b.store = st then some (b.line % storeBanks st) else none)) ++ (if st = 0 then (s.clu c).fbanks else [])
  else []

/-- R186: the banks of a byte range of a store are idle in this ccy: neither the schedule nor an elastic use has taken them.
Outside a voyage every bank cycle is idle. -/
def State.banksIdle (s : State) (c st lo n : Nat) : Bool :=
  if s.inPart c && s.voyaging (s.partOf c) then
    let taken := s.schedBanks c st ++ (s.clu c).ebanks.filterMap (fun e => if e.1 = st then some e.2 else none)
    (linesOf (8 * lo) (8 * n)).all (fun l => !taken.contains (l % storeBanks st))
  else true

/-- R186: an elastic use takes the banks of a byte range for this ccy. -/
def State.takeBanks (s : State) (c st lo n : Nat) : State :=
  if s.inPart c && s.voyaging (s.partOf c) then
    s.modClu c (fun k => { k with ebanks := (linesOf (8 * lo) (8 * n)).map (fun l => (st, l % storeBanks st)) ++ k.ebanks })
  else s

/-- Some two bookings of a list clash. -/
def anyClash : List Book → Bool
  | [] => false
  | b :: r => r.any (bookClash b) || anyClash r

end Sys2Proof.Machine
end

