-- ==== Sys2Proof/Machine/Stroke.lean ====
section
/-! DEFINITION. The pilot's lookahead: decoding a stroke 16 schedule cycles before it issues, with every check of R182 but
those of LEG and TIDE (R149, R151-R164, R176, R178, R181, R182, R185), and the tally change of a compute stroke (R153). -/

namespace Sys2Proof.Machine

/-! ### Loops (R154, R163) -/

/-- The levels in their first iteration, as a mask; an inactive level counts. -/
def levelsFirst (ls : List LoopSt) : Nat :=
  (ls.zip (List.range 4)).foldl (fun m p => if !p.1.act || p.1.idx == 0 then m + 2 ^ p.2 else m) 0

/-- The levels in their last iteration. -/
def levelsLast (ls : List LoopSt) : Nat :=
  (ls.zip (List.range 4)).foldl (fun m p => if !p.1.act || p.1.idx == p.1.cnt then m + 2 ^ p.2 else m) 0

/-- The index of loop level 0, 0 where it is not active. -/
def loopIndex0 (ls : List LoopSt) : Nat :=
  match ls with
  | l :: _ => if l.act then l.idx else 0
  | [] => 0

/-- R163: the stroke after the one at `pc`: the innermost loop that ends there repeats or closes. -/
def advancePc (pc : Nat) : List LoopSt → Nat × List LoopSt
  | [] => (pc + 1, [])
  | l :: r =>
    if l.act && l.last == pc then
      if l.idx < l.cnt then (l.start, { l with idx := l.idx + 1 } :: r)
      else
        let t := advancePc pc r
        (t.1, { l with act := false } :: t.2)
    else
      let t := advancePc pc r
      (t.1, l :: t.2)

/-- R163: a LOOP at `pc` is legal. -/
def loopLegal (ls : List LoopSt) (pc lvl len : Nat) : Bool :=
  let last := pc + 1 + len
  decide (last ≤ 1023) && (ls.zip (List.range 4)).all (fun p =>
    !p.1.act || (decide (lvl < p.2) && decide (p.1.start ≤ pc + 1) && decide (last ≤ p.1.last)))

/-! ### Static checks of the fields (R157-R162) -/

/-- A code where a condition holds. -/
def codeIf (b : Bool) (code : Nat) : List Nat := if b then [code] else []

/-- The fault codes of a row field that its bits alone decide (R46, R116, R130, R156-R159). (log 50, DEDUCED; log 68, DESIGN CHOICE) -/
def rowStatic (r idx0 : Nat) : List Nat :=
  let op := rowOp r
  if op = 0 then codeIf (r % 2 ^ 85 != 0) 3
  else if op ≤ 3 then
    let lane := fun (code : Nat) => match fmtOf code with | some f => f.isLane | none => false
    let target := fun (code : Nat) => match fmtOf code with | some f => f != .fp64 | none => false
    codeIf (bits r 0 15 != 0 || !lane (bits r 81 4) || !lane (bits r 77 4) || !target (bits r 53 4)) 3 ++
      codeIf (decide (4 < bits r 50 3)) 4 ++
      codeIf (op != 2 && bitAt r 47 && decide (8 ≤ resolved (bits r 63 4) (bitAt r 62) idx0 16)) 5
  else if op ≤ 5 then
    let en1 := bitAt r 58
    codeIf (bits r 0 33 != 0) 3 ++
      codeIf ((bitAt r 84 && decide (4 < bits r 59 3)) || (op == 4 && en1 && decide (4 < bits r 33 3))) 4 ++
      codeIf (op == 5 && en1) 8
  else if op = 6 then codeIf (bits r 0 75 != 0) 3
  else codeIf (bits r 0 77 != 0) 3

/-- The fault codes of a post field that its bits alone decide (R46, R160, R161). (log 68, DESIGN CHOICE) -/
def postStatic (q : Nat) : List Nat :=
  let pop := bits q 42 6
  let resv := bits q 0 13 != 0
  if pop = 0 then codeIf resv 14
  else
    let bad := !popValid pop
    let pt := bits q 30 4
    let cmp := decide (0x10 ≤ pop) && decide (pop ≤ 0x16) && pt != 12
    let mx := pop == 2 && (match fmtOf pt with | some f => !f.isMx | none => false)
    codeIf (resv || bad || cmp || mx) 14 ++
      (if pop = 0x3F then []
       else codeIf ((fmtOf (bits q 38 4)).isNone || (fmtOf (bits q 34 4)).isNone || (fmtOf pt).isNone) 3 ++
         codeIf (decide (4 < bits q 27 3)) 4)

/-- The operand bits each control stroke lists (R162). -/
def copBits (cop : Nat) : Option Nat :=
  let top := fun (n : Nat) => (2 ^ n - 1) * 2 ^ (248 - n)
  match cop with
  | 0x00 => some 0
  | 0x01 => some (2 ^ 20 - 1)
  | 0x02 => some (top 28)
  | 0x03 => some (top 3 + (2 ^ 64 - 1))
  | 0x04 => some (top 32)
  | 0x05 => some (2 ^ 28 - 1)
  | 0x06 => some (top 27)
  | 0x07 => some (top 27)
  | 0x08 => some (top 20)
  | 0x09 => some (top 40)
  | 0x0A => some (top 35)
  | 0x0B => some (top 27)
  | 0x0C => some (top 16 + (2 ^ 128 - 1))
  | 0x3F => some 0
  | _ => none

/-- The cells a lane-form field accumulates into and drains. -/
def accCell (r idx0 : Nat) : Nat := resolved (bits r 63 4) (bitAt r 62) idx0 16
/-- The drain cell. -/
def drainCell (r idx0 : Nat) : Nat := resolved (bits r 58 4) (bitAt r 57) idx0 16
/-- Cell of a spill or fill. -/
def xferCell (r idx0 : Nat) : Nat := resolved (bits r 80 4) (bitAt r 79) idx0 16
/-- Slot of a slot transfer. -/
def xferSlot (r idx0 : Nat) : Nat := resolved (bits r 78 5) (bitAt r 77) idx0 32

/-- Both operands of a lane-form field are MX. -/
def rowMx (r : Nat) : Bool := (fmtD (bits r 81 4)).isMx && (fmtD (bits r 77 4)).isMx

/-- The drain of a lane-form field takes place. -/
def rowDrains (r first last : Nat) : Bool := (rowOp r == 2 || rowOp r == 3) && predTrue (bits r 15 5) first last

/-- The accumulate of a lane-form field takes place. -/
def rowAccs (r : Nat) : Bool := rowOp r == 1 || rowOp r == 3

/-! ### Checks against the pilot's state -/

/-- R117, R118: BLOCK faults of a row field, and the open blocks after it. -/
def blockCheck (opened : SMap Nat) (r row mask idx0 first last : Nat) : List Nat × SMap Nat :=
  let openAt := fun (cell : Nat) => Nat.land (SMap.get 0 opened (row * 16 + cell)) mask
  let readsOpen : Bool :=
    (rowDrains r first last && openAt (drainCell r idx0) != 0) ||
      (rowOp r == 7 && !bitAt r 84 && openAt (xferCell r idx0) != 0)
  if rowAccs r && rowMx r then
    let cell := accCell r idx0
    let st := predTrue (bits r 25 5) first last
    let la := predTrue (bits r 20 5) first last
    let old := SMap.get 0 opened (row * 16 + cell)
    (codeIf (readsOpen || (!st && openAt cell != mask)) 6,
      SMap.set 0 opened (row * 16 + cell) (if la then old - Nat.land old mask else Nat.lor old mask))
  else (codeIf readsOpen 6, opened)

/-- R121: an MX drain whose partner core or other row does not carry it. -/
def mxPairBad (w row mask first last : Nat) : Bool :=
  let r := rowField w row
  let o := rowField w (1 - row)
  if rowDrains r first last && (fmtD (bits r 53 4)).isMx then
    let even := evenMask mask
    let odd := Nat.land (mask / 2) 0x5555555555555555
    !(even == odd && rowDrains o first last && bits r 57 5 == bits o 57 5 && bits r 49 8 == bits o 49 8 &&
      bits r 40 2 == bits o 40 2)
  else false

/-- The results a row field sends to FMA slots: schedule cycle, row, slot, cores (R129). -/
def slotResults (r row mask idx0 cyc : Nat) : List (Nat × Nat × Nat × Nat) :=
  match rowOp r with
  | 4 => (if bitAt r 84 then [(cyc + 4, row, bits r 64 5, mask)] else []) ++
      (if bitAt r 58 then [(cyc + 4, row, bits r 38 5, mask)] else [])
  | 5 => if bitAt r 84 then [(cyc + 6, row, bits r 64 5, mask)] else []
  | 6 => if bitAt r 84 then [] else [(cyc + 2, row, xferSlot r idx0, mask)]
  | _ => []

/-- Two results reach one slot in one ccy. -/
def slotClash (x y : Nat × Nat × Nat × Nat) : Bool :=
  x.1 == y.1 && x.2.1 == y.2.1 && x.2.2.1 == y.2.2.1 && Nat.land x.2.2.2 y.2.2.2 != 0

/-- R130: a SLOT fault of a row field. -/
def slotBad (d : Dec) (r row mask idx0 cyc : Nat) : Bool :=
  let new := slotResults r row mask idx0 cyc
  let twice := match new with | [a, b] => slotClash a b | _ => false
  let busy := ((rowOp r == 4 && (bitAt r 84 || bitAt r 58)) || (rowOp r == 5 && bitAt r 84)) &&
    d.fma64.any (fun f => f.1 + 1 == cyc && f.2.1 == row && Nat.land f.2.2 mask != 0)
  twice || busy || new.any (fun a => d.slots.any (slotClash a))

/-- R164: an access uses a walk or base register changed within 16 schedule cycles. -/
def hazBad (d : Dec) (x : Access) (cyc : Nat) : Bool :=
  d.haz.any (fun h => decide (h.cyc < cyc) && decide (cyc ≤ h.cyc + 16) &&
    (h.what == x.walk || (h.what == 32 + x.base && Nat.land h.mask x.mask != 0)))

/-- R185: some booking of a stroke clashes with another of the same cycle, or the launch and the catch of a cycle that the
stroke occupies (up to `endc`) clash with each other. The lines of one LDBASE table (`table`) are judged against every other
access, and not against each other. (log 52, DEDUCED) -/
def State.bankBad (s : State) (c : Nat) (d : Dec) (endc : Nat) (table : Bool) (new : List Book) : Bool :=
  let sails := (nub (new.map (·.cyc))).foldl (fun l t => s.sailBooks c t ++ l) []
  (!table && anyClash new) || new.any (fun b => d.books.any (bookClash b) || sails.any (bookClash b)) ||
    (List.range (endc + 1 - d.cyc)).any (fun i => anyClash (s.sailBooks c (d.cyc + i)))

/-- R178: the guarded units a stroke begins. -/
def State.guardsOf (s : State) (c : Nat) (d : Dec) (as : List Access) : List (Nat × Guard) :=
  let walks := walksUsed as
  walks.foldr (fun w l =>
    let k := s.walkCfg c w
    let pos := SMap.get 0 d.pos w
    if k.gen && walkIndex pos 0 k.dims % 2 ^ k.gunit == 0 then
      match as.find? (fun x => x.walk == w) with
      | some x =>
        let b := (decide (4 ≤ w) && decide (w < 8)) || (decide (16 ≤ w) && decide (w < 20))
        (x.field, { unit := x.field - 1, drain := x.wr, bwalk := b, tally := k.gtally, ok := false }) :: l
      | none => l
    else l) []

/-- R175: the fetches a B-advance of a row makes, one for each logical lane of each core of the mask. -/
def State.fetchesOf (s : State) (c : Nat) (d : Dec) (r row mask cyc : Nat) (held : Bool) : List Fetch :=
  let w := row * 12 + 4 + bits r 42 2
  let k := s.walkCfg c w
  let fb := fmtD (bits r 77 4)
  let n := pairElems (fmtD (bits r 81 4)) fb
  let pos := SMap.get 0 d.pos w
  (coresOf mask).flatMap (fun core =>
    let base := s.word (baseReg (row * 3 + 1)) [c, core]
    lanes8.map (fun lane =>
      let pt := k.point base lane pos
      if pt.2 then ⟨cyc, core, row, lane, fb, n, true, 0, none, [], none, held, none⟩
      else
        let bp := s.elemPos c k.berth fb.width pt.1
        let sc := if fb.isMx && k.sen then some (s.berthBase c k.sberth + (pt.1 / 32).toNat) else none
        let need := nub (linesOf bp (n * fb.width) ++ (match sc with | some a => [a / 32] | none => []))
        ⟨cyc, core, row, lane, fb, n, false, bp, sc, need, none, held, none⟩))

/-! ### Fetches becoming pending (R175) -/

/-- Entries of a lane's slice buffer that hold a slice. -/
def Cluster.laneFull (k : Cluster) (key : Nat) : Nat :=
  let b := SMap.get (BLane.mk none []) k.blanes key
  (if b.cur.isSome then 1 else 0) + b.nxt.length

/-- The fetches of a cluster with, for each, whether it is pending: it has a free entry of its lane and is not held. -/
def Cluster.fetchPend (k : Cluster) : List (Fetch × Bool) :=
  let rec go (seen : SMap Nat) : List Fetch → List (Fetch × Bool)
    | [] => []
    | f :: r =>
      let key := (f.core * 2 + f.row) * 8 + f.lane
      let n := SMap.get 0 seen key
      (f, !f.held && decide (n + k.laneFull key < 2)) :: go (SMap.put seen key (n + 1)) r
  go [] k.fetches

/-- The slice a fetch delivers, as the W-store holds it (R59, R174, R177). -/
def Cluster.sliceOf (k : Cluster) (f : Fetch) : BSlice :=
  if f.pad then ⟨List.replicate f.count IForm.pzero, 0x7F⟩
  else
    let sc := match f.scaleAt with | some a => (k.w.byte a).toNat | none => 0x7F
    ⟨(List.range f.count).map (fun i => toIForm f.fmt (k.getBits 0 (f.bitPos + i * f.fmt.width) f.fmt.width) sc), sc⟩

/-- A padded fetch is in its buffer 4 ccy after it becomes pending (R175). -/
def Cluster.padReady (k : Cluster) (now : Nat) : Cluster :=
  { k with fetches := k.fetchPend.map (fun p =>
      if p.2 && p.1.need.isEmpty && p.1.ready.isNone then
        { p.1 with ready := some (now + 4), slice := some (k.sliceOf p.1) } else p.1) }

/-- R175: the order in which the sequencer takes fetches. -/
def fetchKey (f : Fetch) : Nat := ((f.cyc * 64 + f.core) * 2 + f.row) * 8 + f.lane

/-! ### Decoding -/

/-- What decoding a stroke yields: faults found by field and code, the pilot after it, the bank lines it books, the last
cycle it occupies, what is left to do at issue, the accesses and guards. -/
structure Decoded where
  bad : List (Nat × Nat)
  d : Dec
  books : List Book
  endc : Nat
  todo : Nat
  mask : Nat
  bind : Option (Bool × Nat)
  as : List Access
  guards : List Guard
  fetches : List Fetch
  deriving DecidableEq, Repr

/-- R162-R165: a control stroke. -/
def State.decodeControl (s : State) (c : Nat) (d : Dec) (w : Nat) : Decoded :=
  let p := s.partOf c
  let cop := strokeCop w
  let opnd := w % 2 ^ 248
  let resv := match copBits cop with
    | some m => opnd - Nat.land opnd m != 0
    | none => true
  let base : Decoded := ⟨codeIf resv 2 |>.map (fun x => (0, x)), d, [], d.cyc, 1, 0, none, [], [], []⟩
  let add := fun (r : Decoded) (l : List Nat) => { r with bad := r.bad ++ l.map (fun x => (0, x)) }
  let image := fun (h off n : Nat) =>
    let chk := match s.checkBerth c h [0, 1, 2] false 8 off n with
      | some e => [e]
      | none => codeIf (off % 64 != 0) 9
    let st := s.berthStore c h
    let lines := (linesOf (8 * (s.berthBase c h + off)) (8 * n)).map (fun l => Book.mk d.cyc st l false)
    (chk, if chk.isEmpty then lines else [])
  match cop with
  | 0x01 => { base with endc := d.cyc + bits w 0 20 }
  | 0x02 =>
    let lvl := bits w 246 2
    let len := bits w 220 10
    let r := add base (codeIf (!loopLegal d.loops d.pc lvl len) 0x0C)
    { r with d := { d with loops := listSet d.loops lvl ⟨true, d.pc + 1, d.pc + 1 + len, bits w 230 16, 0⟩ } }
  | 0x03 =>
    let m := bits w 245 3
    let r := add base (codeIf (m == 0) 2)
    { r with d := { d with masks := if m = 0 then d.masks else listSet d.masks m (bits w 0 64) } }
  | 0x04 =>
    let k := bits w 243 5
    let im := image (bits w 236 7) (bits w 216 20) 64
    let r := add base (codeIf (decide (27 < k)) 2 ++ im.1)
    { r with books := im.2, d := { d with pos := SMap.set 0 d.pos k 0, haz := ⟨k, d.cyc, 0⟩ :: d.haz } }
  | 0x05 =>
    let ws := (List.range 28).filter (bitAt (bits w 0 28))
    { base with d := { d with pos := ws.foldl (fun m k => SMap.set 0 m k 0) d.pos,
                              haz := ws.map (fun k => Haz.mk k d.cyc 0) ++ d.haz } }
  | 0x06 =>
    let h := bits w 241 7
    let off := bits w 221 20
    let im := image h off 4096
    let r := add base im.1
    { r with books := im.2, d := { d with haz := (List.range 8).map (fun k => Haz.mk (32 + k) d.cyc (2 ^ 64 - 1)) ++ d.haz } }
  | 0x07 =>
    let m := listGet 0 d.masks (bits w 242 3)
    { base with d := { d with haz := ⟨32 + bits w 245 3, d.cyc, m⟩ :: d.haz } }
  | 0x08 =>
    let t := bits w 228 16
    let r := add base (codeIf (decide (16383 < t)) 0x0F)
    { r with d := { d with binds := listSet d.binds (bits w 245 3) (some (bitAt w 244, t)) } }
  | 0x09 => add base (codeIf (!s.tallyOf p (bits w 232 16)) 0x0F)
  | 0x0C => { base with d := { d with lock := bits w 0 128 } }
  | 0x3F => { base with d := { d with ended := true } }
  | _ => base

/-- R151-R161: a compute stroke. (log 75, DESIGN CHOICE) -/
def State.decodeCompute (s : State) (c : Nat) (d : Dec) (w : Nat) : Decoded :=
  let p := s.partOf c
  let cyc := d.cyc
  let first := levelsFirst d.loops
  let last := levelsLast d.loops
  let idx0 := loopIndex0 d.loops
  let mask := listGet 0 d.masks (bits w 251 3)
  let bind := listGet none d.binds (bits w 232 3)
  let tpr := predTrue (bits w 224 5) first last
  let tallyBad := tpr && (match bind with | some b => !s.tallyOf p b.2 | none => true)
  let ra := rowField w 0
  let rb := rowField w 1
  let q := postField w
  let ba := blockCheck d.opened ra 0 mask idx0 first last
  let bb := blockCheck ba.2 rb 1 mask idx0 first last
  let stat : List (Nat × Nat) :=
    (codeIf tallyBad 0x0F).map (fun x => (0, x)) ++
    (rowStatic ra idx0 ++ ba.1 ++ codeIf (mxPairBad w 0 mask first last) 7 ++
      codeIf (slotBad d ra 0 mask idx0 cyc) 8).map (fun x => (1, x)) ++
    (rowStatic rb idx0 ++ bb.1 ++ codeIf (mxPairBad w 1 mask first last) 7 ++
      codeIf (slotBad d rb 1 mask idx0 cyc) 8).map (fun x => (2, x))
  let pop := bits q 42 6
  let f64 := fmtD (bits q 30 4) == .fp64
  let postActs := pop != 0 && popValid pop && predTrue (bits q 13 5) first last
  let isMxe := postActs && pop == 2
  let isDiv := postActs && (pop == 0x20 || pop == 0x21) && f64
  let post : List (Nat × Nat) :=
    (postStatic q ++ codeIf ((isMxe && d.mxe == cyc) || (isDiv && d.div64 == cyc)) 14).map (fun x => (3, x))
  let as := strokeAccesses w mask first last
  let checks := as.map (fun x =>
    let k := s.walkCfg c x.walk
    (x, s.checkAccess c d.lock (SMap.get 0 d.pos x.walk) k x))
  let dyn : List (Nat × Nat) := checks.flatMap (fun e =>
    (match e.2.1 with | some code => [(e.1.field, code)] | none => []) ++
      (codeIf (hazBad d e.1 cyc) 0x0B).map (fun x => (e.1.field, x)))
  let books := checks.flatMap (fun e =>
    if e.1.book then e.2.2.map (fun l => Book.mk (cyc + e.1.off) l.1 l.2 e.1.wr) else [])
  let gs := s.guardsOf c d as
  let gbad := (gs.filter (fun g => !s.tallyOf p g.2.tally)).map (fun g => (g.1, 0x0F))
  let bguard := fun (row : Nat) => gs.any (fun g => g.2.bwalk && g.2.unit == row)
  let fet := fun (r row : Nat) =>
    if rowAccs r && predTrue (bits r 30 5) first last then s.fetchesOf c d r row mask cyc (bguard row) else []
  let npos := (walksUsed as).foldl (fun m k =>
    SMap.set 0 m k ((s.walkCfg c k).next (SMap.get 0 m k))) d.pos
  let acts := fun (r : Nat) =>
    rowAccs r || rowDrains r first last || (rowOp r == 4 && (bitAt r 84 || bitAt r 58)) || (rowOp r == 5 && bitAt r 84) ||
      decide (6 ≤ rowOp r)
  let f64s := (if rowOp ra = 5 ∧ bitAt ra 84 = true then [(cyc, 0, mask)] else []) ++
    (if rowOp rb = 5 ∧ bitAt rb 84 = true then [(cyc, 1, mask)] else [])
  { bad := stat ++ post ++ dyn ++ gbad
    d := { d with
      opened := bb.2
      pos := npos
      slots := slotResults ra 0 mask idx0 cyc ++ slotResults rb 1 mask idx0 cyc ++ d.slots
      fma64 := f64s ++ d.fma64
      mxe := if isMxe then cyc + 1 else d.mxe
      div64 := if isDiv then cyc + 1 else d.div64 }
    books := books
    endc := cyc
    todo := b2n tpr + 2 * b2n (acts ra) + 4 * b2n (acts rb) + 8 * b2n postActs
    mask := mask
    bind := bind
    as := as
    guards := gs.map (·.2)
    fetches := fet ra 0 ++ fet rb 1 }

/-- R182: the one fault recorded of those found: first field, then lowest code. -/
def firstBad (l : List (Nat × Nat)) : Option (Nat × Nat) :=
  l.foldl (fun a x => match a with
    | none => some x
    | some y => if x.1 < y.1 ∨ (x.1 = y.1 ∧ x.2 < y.2) then some x else some y) none

/-- The decode side forgets what lies behind a schedule cycle. -/
def Dec.prune (d : Dec) : Dec :=
  { d with
    haz := d.haz.filter (fun h => decide (d.cyc ≤ h.cyc + 16))
    slots := d.slots.filter (fun x => decide (d.cyc ≤ x.1))
    fma64 := d.fma64.filter (fun x => decide (d.cyc ≤ x.1 + 1)) }

/-- The stroke at the decode side's program counter is decoded and checked (R149). -/
def State.decodeNext (s : State) (c : Nat) : State :=
  let k := s.clu c
  let d := k.dec.prune
  let stop := fun (field code : Nat) =>
    s.modClu c (fun k => { k with dec := { d with ended := true, fault := some ⟨d.cyc, code, field, d.pc % 1024⟩ } })
  if 1023 < d.pc then stop 0 0x0D
  else
    let w := leNat (k.ins.bytes (32 * d.pc) 32)
    if 2 ≤ strokeKind w then stop 0 0x01
    else
      let r := if strokeKind w = 0 then s.decodeCompute c d w else s.decodeControl c d w
      let table := strokeKind w == 1 && strokeCop w == 6
      let bad := r.bad ++ (codeIf (s.bankBad c d r.endc table r.books) 0x11).map (fun x => (0, x))
      match firstBad bad with
      | some (f, code) => stop f code
      | none =>
        let isLoop := strokeKind w == 1 && strokeCop w == 2
        let nx := if isLoop then (d.pc + 1, r.d.loops) else advancePc d.pc r.d.loops
        let used := walksUsed r.as
        let e : Ent :=
          { addr := d.pc, cyc := d.cyc, endc := r.endc, word := w, idx0 := loopIndex0 d.loops,
            first := levelsFirst d.loops, last := levelsLast d.loops, mask := r.mask, bind := r.bind,
            pos := used.map (fun x => (x, SMap.get 0 d.pos x)), npos := used.map (fun x => (x, SMap.get 0 r.d.pos x)),
            npc := nx.1, nloops := nx.2, guards := r.guards, todo := r.todo }
        let d' := { r.d with pc := nx.1, loops := nx.2, cyc := r.endc + 1, books := r.books ++ d.books }
        let now := (s.part (s.partOf c)).pccy
        s.modClu c (fun k =>
          ({ k with dec := d', look := k.look ++ [e], fetches := k.fetches ++ sortBy fetchKey r.fetches }).padReady now)

/-- A pilot of a running voyage may decode: its state is RUN, HELD or TIDE, and no recovery is in progress. -/
def State.running (s : State) (c : Nat) : Bool :=
  let p := s.partOf c
  s.inPart c && s.voyaging p && decide (2 ≤ s.pilot c) && decide (s.pilot c ≤ 4)

/-- STROKE_DECODE (R149). An uncorrectable error in the stroke's line is handled under R190: the partition stops before the
stroke would issue, and the pilot decodes no further. -/
def execStrokeDecode (c : Nat) (s : State) : Res := onCore s fun s =>
  let d := (s.clu c).dec
  if s.running c && !d.ended && d.fault.isNone && decide (d.cyc ≤ s.scycOf c + 16) then
    let r := if d.pc ≤ 1023 then s.eccRead c 4 (32 * d.pc) (32 * d.pc + 32) else (s, false)
    if r.2 && (r.1.part (r.1.partOf c)).recov.isSome then
      r.1.modClu c (fun k => { k with dec := { k.dec with ended := true } })
    else r.1.decodeNext c
  else s

/-! ### At issue -/

/-- R31, R181: strokes issue in the present ccy of partition `p`: its hold pipe has been examined and holds no cause, and no
stop falls before the schedule cycle. -/
def State.issuing (s : State) (p : Nat) : Bool :=
  let q := s.part p
  (match q.hold with | h :: _ => h.exam && h.causes == 0 | [] => false) && !q.recDue &&
    (match q.stopAt with | some (u, _) => decide (q.scyc < u) | none => true) &&
    q.cls.all (fun c => match (s.clu c).dec.fault with | some f => decide (q.scyc < f.cyc) | none => true)

/-- The stroke of the present schedule cycle of a cluster, where its pilot may issue it. -/
def State.headEnt (s : State) (c : Nat) : Option Ent :=
  if s.running c && s.issuing (s.partOf c) then (s.clu c).look.find? (fun e => e.cyc == s.scycOf c) else none

/-- Field `k` of the present stroke has been carried out. -/
def State.doneField (s : State) (c k : Nat) : State :=
  let t := s.scycOf c
  s.modClu c (fun q => { q with look := q.look.map (fun e =>
    if e.cyc == t then { e with todo := e.todo - (if bitAt e.todo k then 2 ^ k else 0) } else e) })

/-- The position that walk `w` has in a stroke. -/
def Ent.posOf (e : Ent) (w : Nat) : Nat := SMap.get 0 (e.pos.filter (fun x => x.1 == w)) w

/-- STROKE_TALLY_CHANGE (R153): the tally change of a compute stroke. -/
def execStrokeTallyChange (c : Nat) (s : State) : Res := onCore s fun s =>
  match s.headEnt c with
  | some e =>
    if strokeKind e.word = 0 ∧ bitAt e.todo 0 = true then
      let s := s.doneField c 0
      match e.bind with
      | some (sub, t) =>
        let n := 2 ^ bits e.word 229 3
        s.changeTally t (if sub then ⟨0, n, 0, 0⟩ else ⟨n, 0, 0, 0⟩)
      | none => s
    else s
  | none => s

end Sys2Proof.Machine
end

