-- ==== Sys2Proof/Machine/Lane.lean ====
section
/-! DEFINITION. The lane rows at issue: accumulate, drain, spill and fill (R78-R103, R110-R122, R155-R159, R177). A cell's
value changes here in stroke order, which R82 makes the only order that shows; what reaches a store or a flag word lands in
the schedule cycle of R120, R159 and R529. -/

namespace Sys2Proof.Machine

/-- Row number of a lane row. -/
def rowNum (r : Row) : Nat := match r with | .a => 0 | .b => 1

/-- Key of a cell. -/
def cellKey (core row lane cell : Nat) : Nat := ((core * 2 + row) * 8 + lane) * 16 + cell

/-- A cell of a cluster. (log 69, DESIGN CHOICE) -/
def Cluster.cell (k : Cluster) (key : Nat) : Cell := SMap.get (Cell.idle 0) k.cells key

/-- Replace a cell. -/
def Cluster.setCell (k : Cluster) (key : Nat) (c : Cell) : Cluster := { k with cells := SMap.set (Cell.idle 0) k.cells key c }

/-- A block accumulator of a cluster. -/
def Cluster.block (k : Cluster) (key : Nat) : Block := SMap.get Block.clear k.blocks key

/-- Replace a block accumulator. -/
def Cluster.setBlock (k : Cluster) (key : Nat) (b : Block) : Cluster := { k with blocks := SMap.set Block.clear k.blocks key b }

/-- An effect joins the pipelines. -/
def Cluster.push (k : Cluster) (due issued : Nat) (e : Eff) : Cluster := { k with pend := k.pend ++ [⟨due, issued, e⟩] }

/-- Flags join the pipelines, where there are any. -/
def Cluster.pushFlags (k : Cluster) (due issued core f org : Nat) : Cluster :=
  if f = 0 then k else k.push due issued (.flags core f org)

/-! ### Reading operands (R57, R172, R174, R177) -/

/-- `n` elements from a walk's address, each with its scale byte; zeros with scale 0x7F at a padded position. -/
def State.fetchElems (s : State) (c : Nat) (k : WalkCfg) (pt : Int × Bool) (f : Fmt) (n : Nat) : List (Nat × Nat) :=
  if pt.2 then List.replicate n (0, 0x7F)
  else
    let cl := s.clu c
    let st := s.berthStore c k.berth
    let pos := s.elemPos c k.berth f.width pt.1
    let sst := s.berthStore c k.sberth
    let sb := s.berthBase c k.sberth
    (List.range n).map (fun i =>
      (cl.getBits st (pos + i * f.width) f.width,
       if f.isMx && k.sen then ((cl.store sst).byte (sb + ((pt.1 + (i : Int)) / 32).toNat)).toNat else 0x7F))

/-- R189, R190: the scheduled reads of a stroke's field find the ECC errors of their lines, each line being read once. The
stroke goes on: an error that cannot be corrected stops the partition 12 ccy later (R443). -/
def State.fieldEcc (s : State) (c : Nat) (e : Ent) (field : Nat) : State :=
  if (s.clu c).ecc.isEmpty then s
  else
    let as := (strokeAccesses e.word e.mask e.first e.last).filter (fun x => x.field == field && !x.wr && x.book)
    let lines := nub (as.flatMap (fun x => (s.checkAccess c 0 (e.posOf x.walk) (s.walkCfg c x.walk) x).2))
    lines.foldl (fun a l => (a.eccRead c l.1 (32 * l.2) (32 * l.2 + 32)).1) s

/-- The rounding context of a stroke's field (R100, R101). -/
def State.rctx (s : State) (c : Nat) (e : Ent) (rm : Nat) (om : Bool) : RCtx :=
  { rm := rm, om := om, seed := BitVec.ofNat 64 (s.word .CLU_PSEED [c]), tag := strokeTag e.word, scy := e.cyc }

/-! ### Accumulate -/

/-- R114: the B slice of a lane for an accumulate, after a B-advance where `adv`. -/
def BLane.advance (b : BLane) (adv : Bool) : BLane :=
  if adv then match b.nxt with | x :: r => ⟨some x, r⟩ | [] => ⟨none, []⟩ else b

/-- The products of a lane in one ccy, their exact forms (R84, R95, R96). -/
def laneProducts (a : List IForm) (b : BSlice) (n : Nat) (sc : Int) : List Prd :=
  (List.range n).map (fun i => mulForms (listGet IForm.pzero a i) (listGet IForm.pzero b.forms i) sc)

/-- What the lane fields of an accumulate say, resolved at issue. -/
structure AccCtl where
  cell : Nat
  win : BitVec 10
  ts : Bool
  neg : Bool
  twin : Bool
  tneg : Bool
  /-- both operands MX: in a block, at its start, at its end -/
  mx : Bool
  bst : Bool
  bla : Bool
  /-- lsb of the block accumulator and scale exponent S (R95) -/
  lo : Int
  sc : Int
  deriving DecidableEq, Repr

/-- R116, R117: one lane of one core takes its products: the cluster after it and the NV flag. -/
def Cluster.laneAcc (k : Cluster) (core row lane : Nat) (t : AccCtl) (ps : List Prd) : Cluster × Nat :=
  let key := cellKey core row lane t.cell
  let key8 := cellKey core row lane (t.cell + 8)
  if t.mx then
    let b0 := if t.bst then { Block.clear with opened := true } else k.block key
    let r := b0.add t.lo ps
    if t.bla then
      let one := fun (k : Cluster) (key : Nat) (n : Bool) =>
        let q := ((k.cell key).start t.ts t.win).accumulateBlock n r.1 t.lo t.sc
        (k.setCell key q.1, q.2)
      let x := one (k.setBlock key Block.clear) key t.neg
      let y := if t.twin then one x.1 key8 (t.neg ^^ t.tneg) else (x.1, 0)
      (y.1, orF r.2 (orF x.2 y.2))
    else
      let k := k.setBlock key r.1
      (if t.ts then k.setCell key ((k.cell key).start true t.win) else k, r.2)
  else
    let one := fun (k : Cluster) (key : Nat) (n : Bool) =>
      let q := ((k.cell key).start t.ts t.win).accumulate n ps
      (k.setCell key q.1, q.2)
    let x := one k key t.neg
    let y := if t.twin then one x.1 key8 (t.neg ^^ t.tneg) else (x.1, 0)
    (y.1, orF x.2 y.2)

/-- The lanes of one core accumulate. (log 74, DESIGN CHOICE) -/
def State.coreAcc (s : State) (c core row : Nat) (e : Ent) (k : Cluster) : Cluster :=
  let r := rowField e.word row
  let fa := fmtD (bits r 81 4)
  let fb := fmtD (bits r 77 4)
  let n := pairElems fa fb
  let adv := predTrue (bits r 30 5) e.first e.last
  let wk := s.walkCfg c (row * 12 + bits r 44 2)
  let pt := wk.point (s.word (baseReg (row * 3)) [c, core]) 0 (e.posOf (row * 12 + bits r 44 2))
  let el := s.fetchElems c wk pt fa n
  let sa := match el with | x :: _ => x.2 | [] => 0x7F
  let af := el.map (fun x => toIForm fa x.1 x.2)
  let mx := rowMx r
  lanes8.foldl (fun k lane =>
    let bk := (core * 2 + row) * 8 + lane
    let bl := (SMap.get (BLane.mk none []) k.blanes bk).advance adv
    let k := { k with blanes := SMap.set (BLane.mk none []) k.blanes bk bl }
    let sl := bl.cur.getD ⟨[], 0x7F⟩
    let sc : Int := (if fa.isMx then (sa : Int) - 127 else 0) + (if fb.isMx then (sl.scale : Int) - 127 else 0)
    let ctl : AccCtl :=
      { cell := accCell r e.idx0, win := BitVec.ofNat 10 (bits r 67 10), ts := predTrue (bits r 35 5) e.first e.last,
        neg := bitAt r 48, twin := bitAt r 47, tneg := bitAt r 46, mx := mx,
        bst := predTrue (bits r 25 5) e.first e.last, bla := predTrue (bits r 20 5) e.first e.last,
        lo := fa.qlo + fb.qlo, sc := sc }
    let ps := laneProducts af sl n (if mx then 0 else sc)
    let sn := af.any (·.snan) || (sl.forms.take n).any (·.snan)
    let q := k.laneAcc core row lane ctl ps
    q.1.pushFlags (e.cyc + 4) e.cyc core (orF q.2 (if sn then fNV else 0)) 7) k

/-- The physical lane that serves a logical lane (R125). -/
def State.physLane (s : State) (c core row lane : Nat) : Nat :=
  let b := s.fld (if row = 0 then F.CLU_LMAP.BYP_A else F.CLU_LMAP.BYP_B) [c, core]
  if b < 8 then if lane < b then lane else lane + 1 else lane

/-- R86, R449: the transient errors of one ccy enter their accumulators; each lane whose mod-15 residue shows one is a lane
fault, at the physical lane that served it. -/
def State.applyUpsets (s : State) (c row : Nat) (e : Ent) (us : List Upset) : State :=
  let mine := us.filter (fun u => bitAt e.mask u.core.val)
  let cell := accCell (rowField e.word row) e.idx0
  let s1 := mine.foldl (fun a u => a.modClu c (fun k =>
    let key := cellKey u.core.val row u.lane.val cell
    let x := k.cell key
    k.setCell key { x with acc := x.acc + BitVec.ofInt 146 u.delta })) s
  let lanes := nub (mine.map (fun u => (u.core.val, u.lane.val)))
  let bad := lanes.filter (fun x =>
    ((mine.filter (fun u => u.core.val == x.1 && u.lane.val == x.2)).map (·.delta)).sum % 15 != 0)
  bad.foldl (fun a x => a.laneFault c x.1 row (s.physLane c x.1 row x.2)) s1

/-- The lanes of the present stroke's cores accumulate (R119). -/
def State.rowAccumulate (s : State) (c row : Nat) (e : Ent) : State :=
  s.modClu c (fun k => (coresOf e.mask).foldl (fun k core => s.coreAcc c core row e k) k)

/-- The next slice of every lane of the cores that B-advance is in its buffer. -/
def State.slicesReady (s : State) (c row : Nat) (e : Ent) : Bool :=
  if predTrue (bits (rowField e.word row) 30 5) e.first e.last then
    (coresOf e.mask).all (fun core => lanes8.all (fun lane =>
      !(SMap.get (BLane.mk none []) (s.clu c).blanes ((core * 2 + row) * 8 + lane)).nxt.isEmpty))
  else true

/-! ### Drain (R98, R99, R120, R121) -/

/-- R98, R120: one core drains one cell index into a target that is not MX. -/
def State.coreDrain (s : State) (c core row : Nat) (e : Ent) (k : Cluster) : Cluster :=
  let r := rowField e.word row
  let f := fmtD (bits r 53 4)
  let ctx := s.rctx c e (bits r 50 3) (bitAt r 49)
  let w := row * 12 + 8 + bits r 40 2
  let wk := s.walkCfg c w
  let base := s.word (baseReg (row * 3 + 2)) [c, core]
  let st := s.berthStore c wk.berth
  let q := lanes8.foldl (fun (a : Cluster × Nat) lane =>
    let key := cellKey core row lane (drainCell r e.idx0)
    let cell := a.1.cell key
    let pt := wk.point base lane (e.posOf w)
    let v := cell.drain f (ctx.rnd pt.1.toNat) ctx.om
    ((a.1.setCell key (Cell.idle cell.win)).push (e.cyc + 9) e.cyc
      (.put st (s.elemPos c wk.berth f.width pt.1) f.width v.1), orF a.2 v.2)) (k, 0)
  q.1.pushFlags (e.cyc + 9) e.cyc core q.2 7

/-- Writes of the elements and the scale of an MX block (R57, R177). -/
def State.putBlock (s : State) (c : Nat) (wk : WalkCfg) (f : Fmt) (a : Int) (due issued : Nat) (els : List Nat) (sc : Nat)
    (k : Cluster) : Cluster :=
  let st := s.berthStore c wk.berth
  let pos := s.elemPos c wk.berth f.width a
  let k := (els.zip (List.range els.length)).foldl (fun k p =>
    k.push due issued (.put st (pos + p.2 * f.width) f.width p.1)) k
  if wk.sen then k.push due issued (.put (s.berthStore c wk.sberth) (s.elemPos c wk.sberth 8 (a / 32)) 8 sc) else k

/-- R99, R121: the pair of cores `even` and `even + 1` drains one MX block. -/
def State.pairDrain (s : State) (c even : Nat) (e : Ent) (k : Cluster) : Cluster :=
  let r := rowField e.word 0
  let f := fmtD (bits r 53 4)
  let ctx := s.rctx c e (bits r 50 3) (bitAt r 49)
  let w := 8 + bits r 40 2
  let wk := s.walkCfg c w
  let pt := wk.point (s.word (baseReg 2) [c, even]) 0 (e.posOf w)
  let cellNo := drainCell r e.idx0
  let keysOf := fun (core : Nat) =>
    (lanes8.map (fun l => cellKey core 0 l cellNo)) ++ lanes8.map (fun l => cellKey core 1 l cellNo)
  let keys := keysOf even ++ keysOf (even + 1)
  let b := mxEncodeBlock f ctx pt.1.toNat (keys.map (fun y => (k.cell y).mxSource (ctx.rnd pt.1.toNat)))
  let sticky := fun (core : Nat) => (keysOf core).foldl (fun a y => orF a (k.cell y).stickyF) 0
  let fe := orF b.2.2 (sticky even)
  let fo := orF b.2.2 (sticky (even + 1))
  let k := keys.foldl (fun k y => k.setCell y (Cell.idle (k.cell y).win)) k
  let k := s.putBlock c wk f pt.1 (e.cyc + 11) e.cyc b.1 b.2.1 k
  (k.pushFlags (e.cyc + 11) e.cyc even fe 7).pushFlags (e.cyc + 11) e.cyc (even + 1) fo 7

/-- The drain of the present stroke's row. Both rows carry an MX drain (R121), and the row carried out first drains
the block, so that it reads every cell before this stroke's accumulates. -/
def State.rowDrain (s : State) (c row : Nat) (e : Ent) : State :=
  let r := rowField e.word row
  if !rowDrains r e.first e.last then s
  else if (fmtD (bits r 53 4)).isMx then
    if bitAt e.todo 1 && bitAt e.todo 2 then
      s.modClu c (fun k => (coresOf (evenMask e.mask)).foldl (fun k core => s.pairDrain c core e k) k)
    else s
  else s.modClu c (fun k => (coresOf e.mask).foldl (fun k core => s.coreDrain c core row e k) k)

/-! ### Commands -/

/-- The present stroke of a cluster where field `row + 1` is still to be carried out and its OP is `op`. -/
def State.rowEnt (s : State) (c row op : Nat) : Option Ent :=
  match s.headEnt c with
  | some e =>
    if strokeKind e.word == 0 && bitAt e.todo (row + 1) && rowOp (rowField e.word row) == op then some e else none
  | none => none

/-- ACCUMULATE and ACCUMULATE AND DRAIN (R119, R122): the drain reads before the accumulate. (log 58, DEDUCED) -/
def State.accumulateCmd (s : State) (c row op : Nat) (us : List Upset) : State :=
  match s.rowEnt c row op with
  | none => s
  | some e =>
    if s.slicesReady c row e then
      let s := (((s.fieldEcc c e (row + 1)).rowDrain c row e).rowAccumulate c row e).doneField c (row + 1)
      s.applyUpsets c row e us
    else s

/-- DRAIN (R98, R120). -/
def execDrain (c : Nat) (row : Row) (s : State) : Res := onCore s fun s =>
  let r := rowNum row
  match s.rowEnt c r 2 with
  | none => s
  | some e => (s.rowDrain c r e).doneField c (r + 1)

/-- SPILL (R102, R159): each lane's cell image goes to the P-store, and the cell stays as it is. -/
def execSpill (c : Nat) (row : Row) (s : State) : Res := onCore s fun s =>
  let rn := rowNum row
  match s.rowEnt c rn 7 with
  | none => s
  | some e =>
    let r := rowField e.word rn
    if bitAt r 84 then s
    else
      let w := rn * 12 + 8 + bits r 77 2
      let wk := s.walkCfg c w
      let st := s.berthStore c wk.berth
      let s' := s.modClu c (fun k => (coresOf e.mask).foldl (fun k core =>
        let base := s.word (baseReg (rn * 3 + 2)) [c, core]
        lanes8.foldl (fun k lane =>
          let pt := wk.point base lane (e.posOf w)
          k.push (e.cyc + 6) e.cyc (.put st (s.elemPos c wk.berth 192 pt.1) 192
            (leNat (k.cell (cellKey core rn lane (xferCell r e.idx0))).image))) k) k)
      s'.doneField c (rn + 1)

/-- FILL (R102, R159): each lane's cell is replaced by an image read from the P-store. -/
def execFill (c : Nat) (row : Row) (s : State) : Res := onCore s fun s =>
  let rn := rowNum row
  match s.rowEnt c rn 7 with
  | none => s
  | some e =>
    let r := rowField e.word rn
    if !bitAt r 84 then s
    else
      let s := s.fieldEcc c e (rn + 1)
      let w := rn * 12 + 8 + bits r 77 2
      let wk := s.walkCfg c w
      let st := s.berthStore c wk.berth
      let s' := s.modClu c (fun k => (coresOf e.mask).foldl (fun k core =>
        let base := s.word (baseReg (rn * 3 + 2)) [c, core]
        lanes8.foldl (fun k lane =>
          let pt := wk.point base lane (e.posOf w)
          let img := if pt.2 then List.replicate 24 (0 : Byte)
            else (k.store st).bytes (s.elemPos c wk.berth 192 pt.1 / 8) 24
          k.setCell (cellKey core rn lane (xferCell r e.idx0)) (Cell.ofImage img)) k) k)
      s'.doneField c (rn + 1)

end Sys2Proof.Machine
end

