-- ==== Sys2Proof/Machine/Numeric.lean ====
section
/-! DEFINITION. The arithmetic of the FMA units and the post unit on exact values (R75-R77, R104-R106, R134). A result
that is not a dyadic number is carried with far more bits than any format holds and a sticky last bit, so that one
rounding of it is the rounding of the exact result. -/

namespace Sys2Proof.Machine

/-- A result and the flags the operation itself raises (R105), before rounding. -/
abbrev VF := Val × Nat

/-- NV where an operand is a signalling NaN (R66). -/
def sigF (vs : List Val) : Nat := if vs.any (·.isSig) then fNV else 0

/-- Exact sum of two values; `rdn` gives the sign of an exact zero sum (R74, R105). -/
def addVal (rdn : Bool) (a b : Val) : VF :=
  match a, b with
  | .nan _, _ => (.nan false, sigF [a, b])
  | _, .nan _ => (.nan false, sigF [a, b])
  | .inf n, .inf m => if n = m then (.inf n, 0) else (.nan false, fNV)
  | .inf n, _ => (.inf n, 0)
  | _, .inf m => (.inf m, 0)
  | .fin n m e, .fin n' m' e' =>
    let l := min e e'
    let s := a.atExp l + b.atExp l
    (ofIntExp s l (if m = 0 ∧ m' = 0 ∧ n = n' then n else rdn), 0)

/-- Exact product of two values (R105). -/
def mulVal (a b : Val) : VF :=
  match a, b with
  | .nan _, _ => (.nan false, sigF [a, b])
  | _, .nan _ => (.nan false, sigF [a, b])
  | .inf n, .inf m => (.inf (n ^^ m), 0)
  | .inf n, .fin m mag _ => if mag = 0 then (.nan false, fNV) else (.inf (n ^^ m), 0)
  | .fin m mag _, .inf n => if mag = 0 then (.nan false, fNV) else (.inf (n ^^ m), 0)
  | .fin n m e, .fin n' m' e' => (.fin (n ^^ n') (m * m') (e + e'), 0)

/-- R104, R105: `a × b + c` with no intermediate rounding; `np`, `nc` negate the product and c (R158). -/
def fmaVal (rdn : Bool) (np nc : Bool) (a b c : Val) : VF :=
  let sg := sigF [a, b, c]
  let bad : Bool := (a.isInf && b.isZero) || (a.isZero && b.isInf)
  if bad then (.nan false, fNV)
  else if a.isNan || b.isNan || c.isNan then (.nan false, sg)
  else
    let p := (mulVal a b).1.negIf np
    let r := addVal rdn p (c.negIf nc)
    (r.1, orF sg r.2)

/-- Integer square root by bits. -/
def isqrtAux : Nat → Nat → Nat
  | 0, _ => 0
  | k + 1, n =>
    if n = 0 then 0
    else
      let r := 2 * isqrtAux k (n / 4)
      if (r + 1) * (r + 1) ≤ n then r + 1 else r

/-- Integer square root. -/
def isqrt (n : Nat) : Nat := isqrtAux (bitLen n / 2 + 1) n

/-- R105, R106: quotient. -/
def divVal (a b : Val) : VF :=
  match a, b with
  | .nan _, _ => (.nan false, sigF [a, b])
  | _, .nan _ => (.nan false, sigF [a, b])
  | .inf _, .inf _ => (.nan false, fNV)
  | .inf n, .fin m _ _ => (.inf (n ^^ m), 0)
  | .fin n _ _, .inf m => (.fin (n ^^ m) 0 0, 0)
  | .fin n m e, .fin n' m' e' =>
    if m' = 0 then if m = 0 then (.nan false, fNV) else (.inf (n ^^ n'), fDZ)
    else if m = 0 then (.fin (n ^^ n') 0 0, 0)
    else
      let k := 160 + bitLen m'
      let q := m * 2 ^ k / m'
      let rem := m * 2 ^ k % m'
      (.fin (n ^^ n') (2 * q + (if rem = 0 then 0 else 1)) (e - e' - k - 1), 0)

/-- R105, R106: square root. -/
def sqrtVal (a : Val) : VF :=
  match a with
  | .nan _ => (.nan false, sigF [a])
  | .inf n => if n then (.nan false, fNV) else (.inf false, 0)
  | .fin n m e =>
    if m = 0 then (.fin n 0 0, 0)
    else if n then (.nan false, fNV)
    else
      let (m, e) := if e % 2 = 0 then (m, e) else (2 * m, e - 1)
      let k : Nat := 160
      let r := isqrt (m * 2 ^ (2 * k))
      (.fin false (2 * r + (if r * r = m * 2 ^ (2 * k) then 0 else 1)) (e / 2 - k - 1), 0)

/-! ### Exponential and logarithm -/

/-- ln 2 in units of `2^-300`. -/
def ln2Fix : Int := 0xb17217f7d1cf79abc9e3b39803f2f6af40f343267298b62d8a0d175b8baafa2be7b876206de

/-- The square root of 2/π in units of `2^-300`. -/
def sqrt2OverPiFix : Int := 0xcc42299ea1b284687e59e2805d5c717fa7053e60a24e0db1808e369004c73a5d3bf158aa88f

/-- The remaining `n` terms of the exponential series from term `k`, which is `t`. -/
def expSeries (r : Int) : Nat → Nat → Int → Int
  | 0, _, _ => 0
  | n + 1, k, t => t + expSeries r n (k + 1) (t * r / ((k + 1 : Nat) * 2 ^ 300 : Int))

/-- A positive number `mag × 2 ^ ex`. -/
structure BigF where
  mag : Nat
  ex : Int
  deriving DecidableEq, Repr

/-- exp of a number given in units of `2^-300`. -/
def expBig (x : Int) : BigF :=
  let k := (2 * x + ln2Fix) / (2 * ln2Fix)
  let r := x - k * ln2Fix
  ⟨(expSeries r 70 0 (2 ^ 300)).toNat, k - 300⟩

/-- A finite value in units of `2^-300`, rounded down. -/
def toFix (neg : Bool) (m : Nat) (e : Int) : Int :=
  let s := e + 300
  let mag : Int := if 0 ≤ s then ((m * 2 ^ s.toNat : Nat) : Int) else (m : Int)
  let mag := if neg then -mag else mag
  if 0 ≤ s then mag else mag / (2 ^ (-s).toNat : Nat)

/-- A positive inexact result as a value. -/
def BigF.val (b : BigF) (neg : Bool) : Val := .fin neg (2 * b.mag + 1) (b.ex - 1)

/-- exp (R105, R106); exp of a zero is exactly 1. -/
def expVal (a : Val) : VF :=
  match a with
  | .nan _ => (.nan false, sigF [a])
  | .inf n => (if n then .fin false 0 0 else .inf false, 0)
  | .fin n m e =>
    if m = 0 then (.fin false 1 0, 0)
    else
      let lg : Int := (bitLen m : Int) - 1 + e
      if 12 < lg then ((BigF.mk 1 (if n then -5000 else 5000)).val false, 0)
      else if lg < -280 then ((BigF.mk (if n then 2 ^ 280 - 1 else 2 ^ 280) (-280)).val false, 0)
      else ((expBig (toFix n m e)).val false, 0)

/-- The remaining `n` terms of the series `z + z^3/3 + …`, from the odd term `k` with power `p`. -/
def atanhSeries (z2 : Int) : Nat → Nat → Int → Int
  | 0, _, _ => 0
  | n + 1, k, p => p / (k : Int) + atanhSeries z2 n (k + 2) (p * z2 / 2 ^ 300)

/-- log (R105, R106); log of 1 is exactly +0. -/
def logVal (a : Val) : VF :=
  match a with
  | .nan _ => (.nan false, sigF [a])
  | .inf n => if n then (.nan false, fNV) else (.inf false, 0)
  | .fin n m e =>
    if m = 0 then (.inf true, fDZ)
    else if n then (.nan false, fNV)
    else
      let b := bitLen m - 1
      let lg : Int := (b : Int) + e
      if m = 2 ^ b ∧ lg = 0 then (.fin false 0 0, 0)
      else
        let q : Nat := if 3 * 2 ^ b < 2 * m then b + 1 else b
        let ee : Int := if 3 * 2 ^ b < 2 * m then lg + 1 else lg
        let num : Int := (m : Int) - (2 ^ q : Nat)
        let den : Int := (m : Int) + (2 ^ q : Nat)
        let z := num * 2 ^ 300 / den
        let s := 2 * atanhSeries (z * z / 2 ^ 300) 110 1 z + ee * ln2Fix
        (.fin (decide (s < 0)) (2 * s.natAbs + 1) (-301), 0)

/-! ### Activation functions (R134) -/

/-- Sigmoid of a number in units of `2^-300`, of magnitude below 2^13. -/
def sigmoidBig (z : Int) : BigF :=
  let e := expBig (-(z.natAbs : Int))
  -- 1 + e = (2^(-ex) + mag) × 2^ex
  let one : Nat := 2 ^ (-e.ex).toNat
  let den := one + e.mag
  let num := if 0 ≤ z then one else e.mag
  let k := 300 + bitLen den - bitLen num
  ⟨num * 2 ^ k / den, -(k : Int)⟩

/-- tanh of the positive number `m × 2 ^ e`. -/
def tanhBig (m : Nat) (e : Int) : BigF :=
  let lg : Int := (bitLen m : Int) - 1 + e
  if lg < -60 then ⟨m * 2 ^ 200 - 1, e - 200⟩
  else if 8 < lg then ⟨2 ^ 200 - 1, -200⟩
  else
    let x := expBig (-(2 * toFix false m e))
    let one : Nat := 2 ^ (-x.ex).toNat
    let num := one - x.mag
    let den := one + x.mag
    ⟨num * 2 ^ 300 / den, -300⟩

/-- `x × sigmoid z` for the value `±m × 2 ^ e` and `z` in units of `2^-300`. -/
def gatedBig (neg : Bool) (m : Nat) (e : Int) (z : Int) : BigF :=
  let lg : Int := (bitLen m : Int) - 1 + e
  if 8 < lg then if neg then ⟨1, -5000⟩ else ⟨m * 2 ^ 200 - 1, e - 200⟩
  else
    let s := sigmoidBig z
    ⟨m * s.mag, e + s.ex⟩

/-- 2 √(2/π) (x + 0.044715 x³), in units of `2^-300`. -/
def geluArg (x : Int) : Int :=
  let x3 := x * x / 2 ^ 300 * x / 2 ^ 300
  2 * (sqrt2OverPiFix * (x + x3 * 44715 / 1000000) / 2 ^ 300)

/-- The four activation functions that are not exact. -/
inductive Act where
  | gelu | silu | sigmoid | tanh
  deriving DecidableEq, Repr

/-- The exact value of an activation function, as a value with a sticky bit; `none` where R134 states no result
(GELU and SiLU of −∞, a product of an infinity and zero). -/
def actVal (k : Act) (a : Val) : Option Val :=
  match a with
  | .nan _ => some (.nan false)
  | .inf n =>
    match k with
    | .tanh => some (.fin n 1 0)
    | .sigmoid => some (if n then .fin false 0 0 else .fin false 1 0)
    | _ => if n then none else some (.inf false)
  | .fin n m e =>
    if m = 0 then some (match k with | .sigmoid => .fin false 1 (-1) | _ => .fin n 0 0)
    else
      let lg : Int := (bitLen m : Int) - 1 + e
      let x := toFix n m e
      some (match k with
        | .tanh => (tanhBig m e).val n
        | .sigmoid =>
          if 8 < lg then (if n then (BigF.mk 1 (-5000)).val false else (BigF.mk (2 ^ 200 - 1) (-200)).val false)
          else (sigmoidBig x).val false
        | .silu => (gatedBig n m e x).val n
        | .gelu => (gatedBig n m e (if 8 < lg then 0 else geluArg x)).val n)

/-- The free choice of an activation function, for the operand whose FP64 encoding is given. (log 11, DESIGN CHOICE) -/
def actChoice (k : Act) (key : Nat) : Nat :=
  match k with
  | .gelu => Config.gelu key
  | .silu => Config.silu key
  | .sigmoid => Config.sigmoid key
  | .tanh => Config.tanh key

/-- R134: an FP32 value within 2 ulp of a finite exact value: one of the FP32 values that near, by the free choice. -/
def nearFp32 (v : Val) (choice : Nat) : Val :=
  match v with
  | .fin n m e =>
    if m = 0 then v
    else
      let lg : Int := (bitLen m : Int) - 1 + e
      let l : Int := max lg (-126) - 23
      let (q, inex) := roundMag .rtz n m e l
      let c := if inex then q + choice % 4 - 1 else q + choice % 5 - 2
      -- past the top of its binade only the next power of two is an FP32 value this near
      let c := min c (2 ^ 24)
      -- at most the largest finite FP32 magnitude
      let c := if 104 < l ∨ (l = 104 ∧ 2 ^ 24 ≤ c) then 2 ^ 24 - 1 else c
      .fin n c (min l 104)
  | x => x

/-- R52: an encoding of a format, with the canonical NaN for every NaN. -/
def canonEnc (f : Fmt) (enc : Nat) : Nat := if (decodeFmt f enc).isNan then f.nanEnc else enc

/-- R134: an activation's result in a target format with its flags. -/
def actResult (k : Act) (f : Fmt) (r : Rnd) (om : Bool) (a : Val) : Nat × Nat :=
  let key := (convertVal .fp64 .rne false a).1
  let sg := sigF [a]
  match actVal k a with
  | none => (canonEnc f (actChoice k key % 2 ^ f.width), sg)
  | some v =>
    match v with
    | .fin n m e =>
      if m = 0 ∨ a.isInf then
        let c := convertVal f r om (.fin n m e)
        (c.1, orF sg c.2)
      else
        let w := nearFp32 v (actChoice k key)
        let c := convertVal f r om w
        let x := convertVal f r om v
        let exact : Bool := match w with
          | .fin _ m' e' => let b := min e e'; decide (m * 2 ^ (e - b).toNat = m' * 2 ^ (e' - b).toNat)
          | _ => false
        let extra := if exact then 0 else orF fNX (Nat.land x.2 fUF)
        (c.1, orF sg (orF c.2 extra))
    | _ =>
      let c := convertVal f r om v
      (c.1, orF sg c.2)

/-- R106: exp or log in FP64: exact results and overflows round as always, every other result is one of the two
neighbours of the exact one, by the free choice. -/
def near64 (r : Rnd) (om : Bool) (choice : Nat) (v : Val) : Nat × Nat :=
  let c := convertVal .fp64 r om v
  if Nat.land c.2 fOF ≠ 0 then c
  else convertVal .fp64 (.pick (choice % 2 == 1)) om v

/-! ### Comparison and selection (R75-R77) -/

/-- The order of two values that are not NaNs: -1, 0 or 1; zeros of either sign are equal. -/
def cmpVal (a b : Val) : Int :=
  match a, b with
  | .inf n, .inf m => if n = m then 0 else if n then -1 else 1
  | .inf n, _ => if n then -1 else 1
  | _, .inf m => if m then 1 else -1
  | .fin _ _ e, .fin _ _ e' =>
    let l := min e e'
    let x := a.atExp l
    let y := b.atExp l
    if x < y then -1 else if x = y then 0 else 1
  | _, _ => 0

/-- The comparison predicates of R76. -/
inductive Pred where
  | eq | ne | lt | le | gt | ge | unord
  deriving DecidableEq, Repr

/-- R76: the truth of a predicate and the flags of evaluating it. -/
def compareVal (p : Pred) (a b : Val) : Bool × Nat :=
  let un := a.isNan || b.isNan
  let c := cmpVal a b
  let t : Bool := match p with
    | .unord => un
    | .ne => un || decide (c ≠ 0)
    | .eq => !un && decide (c = 0)
    | .lt => !un && decide (c < 0)
    | .le => !un && decide (c ≤ 0)
    | .gt => !un && decide (0 < c)
    | .ge => !un && decide (0 ≤ c)
  let quietNv : Bool := match p with
    | .lt | .le | .gt | .ge => un
    | _ => false
  (t, if quietNv || a.isSig || b.isSig then fNV else 0)

/-- The lesser of two values that are not NaNs, −0 below +0. -/
def lesser (a b : Val) : Val :=
  let c := cmpVal a b
  if c < 0 then a else if 0 < c then b else if a.neg then a else b

/-- The greater of two values that are not NaNs, −0 below +0. -/
def greater (a b : Val) : Val :=
  let c := cmpVal a b
  if c < 0 then b else if 0 < c then a else if a.neg then b else a

/-- The selections of R77. -/
inductive Sel where
  | minimum | maximum | minimumNumber | maximumNumber
  deriving DecidableEq, Repr

/-- R77. -/
def selectVal (k : Sel) (a b : Val) : VF :=
  let sg := sigF [a, b]
  let pickv := match k with
    | .minimum | .minimumNumber => lesser a b
    | _ => greater a b
  let num : Bool := match k with
    | .minimumNumber | .maximumNumber => true
    | _ => false
  if a.isNan && b.isNan then (.nan false, sg)
  else if a.isNan then (if num then b else .nan false, sg)
  else if b.isNan then (if num then a else .nan false, sg)
  else (pickv, sg)

/-! ### Reduction (R133) -/

/-- A conversion into FP32 as a value, with its flags. -/
def toFp32 (r : Rnd) (om : Bool) (v : Val) : VF :=
  let c := convertVal .fp32 r om v
  (decodeFmt .fp32 c.1, c.2)

/-- One level of the tree: adjacent sums, each rounded into FP32. -/
def sumLevel (r : Rnd) (om : Bool) : List Val → List Val × Nat
  | a :: b :: rest =>
    let s := addVal (decide (r = .rdn)) a b
    let c := toFp32 r om s.1
    let t := sumLevel r om rest
    (c.1 :: t.1, orF (orF s.2 c.2) t.2)
  | _ => ([], 0)

/-- R133: the fixed-tree sum of 16 FP32 values into a format. -/
def reduceSum (f : Fmt) (r : Rnd) (om : Bool) (vs : List Val) : Nat × Nat :=
  let l1 := sumLevel r om vs
  let l2 := sumLevel r om l1.1
  let l3 := sumLevel r om l2.1
  match l3.1 with
  | a :: b :: _ =>
    let s := addVal (decide (r = .rdn)) a b
    let c := convertVal f r om s.1
    (c.1, orF (orF l1.2 l2.2) (orF l3.2 (orF s.2 c.2)))
  | _ => (0, 0)

/-- R133: maximum or minimum over a list. -/
def reduceSel (k : Sel) : List Val → VF
  | [] => (.nan false, 0)
  | [a] => (a, sigF [a])
  | a :: r =>
    let t := reduceSel k r
    let s := selectVal k a t.1
    (s.1, orF t.2 s.2)

end Sys2Proof.Machine
end

