-- ==== Sys2Proof/Machine/Fma.lean ====
section
/-! DEFINITION. The FMA units and their slots at issue (R104, R105, R129-R131, R158, R159). -/

namespace Sys2Proof.Machine

/-- Key of an FMA slot. -/
def slotKey (core row slot : Nat) : Nat := (core * 2 + row) * 32 + slot

/-- The value of an FMA slot. -/
def Cluster.slot (k : Cluster) (key : Nat) : W64 := SMap.get 0 k.slots key

/-- One fma of a core, its unit subfield at bit `lo`: slots read in a format, the result rounded once as element D
(R101, R104, R158). -/
def State.unitFma (s : State) (c core row : Nat) (e : Ent) (f : Fmt) (lo due : Nat) (k : Cluster) : Cluster :=
  let r := rowField e.word row
  let rd := fun (slot : Nat) => decodeFmt f ((k.slot (slotKey core row slot)).toNat % 2 ^ f.width)
  let d := bits r (lo + 5) 5
  let rm := bits r lo 3
  let ctx := s.rctx c e rm false
  let v := fmaVal (rm == 3) (bitAt r (lo + 4)) (bitAt r (lo + 3)) (rd (bits r (lo + 20) 5)) (rd (bits r (lo + 15) 5))
    (rd (bits r (lo + 10) 5))
  let q := ctx.conv f d v.1
  (k.push due e.cyc (.slot (slotKey core row d) (BitVec.ofNat 64 q.1))).pushFlags due e.cyc core (orF v.2 q.2) 8

/-- FP32 FMA (R129): each enabled unit of each core of the mask; results at t + 4. -/
def execFp32Fma (c : Nat) (row : Row) (s : State) : Res := onCore s fun s =>
  let rn := rowNum row
  match s.rowEnt c rn 4 with
  | none => s
  | some e =>
    let r := rowField e.word rn
    let s' := s.modClu c (fun k => (coresOf e.mask).foldl (fun k core =>
      let k := if bitAt r 84 then s.unitFma c core rn e .fp32 59 (e.cyc + 4) k else k
      if bitAt r 58 then s.unitFma c core rn e .fp32 33 (e.cyc + 4) k else k) k)
    s'.doneField c (rn + 1)

/-- FP64 FMA (R129): the pair of units; results at t + 6. -/
def execFp64Fma (c : Nat) (row : Row) (s : State) : Res := onCore s fun s =>
  let rn := rowNum row
  match s.rowEnt c rn 5 with
  | none => s
  | some e =>
    let s' := s.modClu c (fun k => (coresOf e.mask).foldl (fun k core =>
      s.unitFma c core rn e .fp64 59 (e.cyc + 6) k) k)
    s'.doneField c (rn + 1)

/-- SLOT LOAD (R129, R159): the slot is written at t + 2; an FP32 value leaves its upper half zero. -/
def execSlotLoad (c : Nat) (row : Row) (s : State) : Res := onCore s fun s =>
  let rn := rowNum row
  match s.rowEnt c rn 6 with
  | none => s
  | some e =>
    let r := rowField e.word rn
    if bitAt r 84 then s
    else
      let s := s.fieldEcc c e (rn + 1)
      let w := rn * 12 + bits r 75 2
      let wk := s.walkCfg c w
      let f : Fmt := if bitAt r 83 then .fp64 else .fp32
      let s' := s.modClu c (fun k => (coresOf e.mask).foldl (fun k core =>
        let pt := wk.point (s.word (baseReg (rn * 3)) [c, core]) 0 (e.posOf w)
        let v := match s.fetchElems c wk pt f 1 with | x :: _ => x.1 | [] => 0
        k.push (e.cyc + 2) e.cyc (.slot (slotKey core rn (xferSlot r e.idx0)) (BitVec.ofNat 64 v))) k)
      s'.doneField c (rn + 1)

/-- SLOT STORE (R129, R159): the berth is written at t + 3. -/
def execSlotStore (c : Nat) (row : Row) (s : State) : Res := onCore s fun s =>
  let rn := rowNum row
  match s.rowEnt c rn 6 with
  | none => s
  | some e =>
    let r := rowField e.word rn
    if !bitAt r 84 then s
    else
      let w := rn * 12 + 8 + bits r 75 2
      let wk := s.walkCfg c w
      let width := if bitAt r 83 then 64 else 32
      let st := s.berthStore c wk.berth
      let s' := s.modClu c (fun k => (coresOf e.mask).foldl (fun k core =>
        let pt := wk.point (s.word (baseReg (rn * 3 + 2)) [c, core]) 0 (e.posOf w)
        k.push (e.cyc + 3) e.cyc (.put st (s.elemPos c wk.berth width pt.1) width
          ((k.slot (slotKey core rn (xferSlot r e.idx0))).toNat % 2 ^ width))) k)
      s'.doneField c (rn + 1)

end Sys2Proof.Machine
end

