-- ==== Sys2Proof/Machine/Post.lean ====
section
/-! DEFINITION. The post unit at issue (R69-R77, R106, R132-R135, R160, R161): sources are read in the schedule cycle of
issue, results and flags land after the latency of R132. -/

namespace Sys2Proof.Machine

/-- What a post operation yields for one core: result encodings, a scale byte for an MX block, and flags. -/
structure PostOut where
  els : List Nat
  scale : Option Nat
  flags : Nat
  deriving DecidableEq, Repr

/-- A post operation applied to the values of its sources: the rounding context, the format of the result, the element
index of the first result, and the sources. -/
abbrev PostFn := RCtx → Fmt → Nat → List Val → List Val → List Val → PostOut

/-- A function of one result element lifted to all of them. -/
def elementwise (n : Nat) (f : RCtx → Fmt → Nat → Val → Val → Val → Nat × Nat) : PostFn :=
  fun ctx pt a x y z =>
    let z0 : Val := .fin false 0 0
    let rs := (List.range n).map (fun i => f ctx pt (a + i) (listGet z0 x i) (listGet z0 y i) (listGet z0 z i))
    ⟨rs.map (·.1), none, rs.foldl (fun q r => orF q r.2) 0⟩

/-- Round an operation's exact result into the target. -/
def roundVF (ctx : RCtx) (pt : Fmt) (i : Nat) (v : VF) : Nat × Nat :=
  let q := ctx.conv pt i v.1
  (q.1, orF v.2 q.2)

/-- The values of a source: 24-bit forms do not arise here; each element is decoded in its own format (R160, R177). (log 72, DESIGN CHOICE) -/
def State.sourceVals (s : State) (c core : Nat) (e : Ent) (walk : Nat) (f : Fmt) (n : Nat) : List Val :=
  let wk := s.walkCfg c walk
  let pt := wk.point (s.word .CLU_BPS [c, core]) 0 (e.posOf walk)
  (s.fetchElems c wk pt f n).map (fun x => decodeScaled f x.1 x.2)

/-- The present stroke where its post field is still to be carried out and its POP is `pop`. -/
def State.postEnt (s : State) (c pop : Nat) : Option Ent :=
  match s.headEnt c with
  | some e => if strokeKind e.word == 0 && bitAt e.todo 3 && bits e.word 42 6 == pop then some e else none
  | none => none

/-- R132, R160, R529: a post operation in every core of the mask. -/
def State.postOp (s : State) (c pop : Nat) (f : PostFn) : State :=
  match s.postEnt c pop with
  | none => s
  | some e =>
    let s := s.fieldEcc c e 3
    let q := postField e.word
    let s1 := fmtD (bits q 38 4)
    let s2 := fmtD (bits q 34 4)
    let pt := fmtD (bits q 30 4)
    let rate := popRate pop (pt == .fp64)
    let ns := popSources pop
    let ctx := s.rctx c e (bits q 27 3) (bitAt q 26)
    let wd := 24 + bits q 18 2
    let wk := s.walkCfg c wd
    let st := s.berthStore c wk.berth
    let due := e.cyc + rate.2.2
    let s' := s.modClu c (fun k => (coresOf e.mask).foldl (fun k core =>
      let x := if 1 ≤ ns then s.sourceVals c core e (24 + bits q 24 2) s1 rate.1 else []
      let y := if 2 ≤ ns then s.sourceVals c core e (24 + bits q 22 2) s2 rate.1 else []
      let z := if 3 ≤ ns then s.sourceVals c core e (24 + bits q 20 2) pt rate.1 else []
      let a := (wk.point (s.word .CLU_BPD [c, core]) 0 (e.posOf wd)).1
      let o := f ctx pt a.toNat x y z
      let k := match o.scale with
        | some sc => s.putBlock c wk pt a due e.cyc o.els sc k
        | none =>
          let pos := s.elemPos c wk.berth pt.width a
          (o.els.zip (List.range o.els.length)).foldl (fun (k : Cluster) (p : Nat × Nat) =>
            k.push due e.cyc (.put st (pos + p.2 * pt.width) pt.width p.1)) k
      k.pushFlags due e.cyc core o.flags 9) k)
    s'.doneField c 3

/-- A binary arithmetic operation. -/
def arith2 (op : Bool → Val → Val → VF) : RCtx → Fmt → Nat → Val → Val → Val → Nat × Nat :=
  fun ctx pt i x y _ => roundVF ctx pt i (op (ctx.rm == 3) x y)

/-- Elements of an arithmetic operation: 16, or 4 in FP64; `PT` decides (R161). -/
def byFmt (pop : Nat) (f : RCtx → Fmt → Nat → Val → Val → Val → Nat × Nat) : PostFn :=
  fun ctx pt a x y z => elementwise (popRate pop (pt == .fp64)).2.1 f ctx pt a x y z

/-- CONVERT (R68-R72, R161). -/
def execConvert (c : Nat) (s : State) : Res :=
  onCore s (fun s => s.postOp c 1 (byFmt 1 (fun ctx pt i x _ _ => ctx.conv pt i x)))

/-- MX ENCODE (R73). -/
def execMxEncode (c : Nat) (s : State) : Res :=
  onCore s (fun s => s.postOp c 2 (fun ctx pt a x _ _ => let b := mxEncodeBlock pt ctx a x; ⟨b.1, some b.2.1, b.2.2⟩))

/-- ADD. -/
def execAdd (c : Nat) (s : State) : Res := onCore s (fun s => s.postOp c 8 (byFmt 8 (arith2 addVal)))

/-- SUBTRACT: a − b is a + (−b), exactly. -/
def execSubtract (c : Nat) (s : State) : Res :=
  onCore s (fun s => s.postOp c 9 (byFmt 9 (arith2 (fun rdn x y => addVal rdn x (y.negIf true)))))

/-- MULTIPLY. -/
def execMultiply (c : Nat) (s : State) : Res := onCore s (fun s => s.postOp c 0x0A (byFmt 0x0A (arith2 (fun _ x y => mulVal x y))))

/-- FMA of the post unit: source 3 in the result format. -/
def execFma (c : Nat) (s : State) : Res :=
  onCore s (fun s => s.postOp c 0x0B (byFmt 0x0B (fun ctx pt i x y z => roundVF ctx pt i (fmaVal (ctx.rm == 3) false false x y z))))

/-- R76, R161: a comparison writes one byte per element. -/
def State.compareCmd (s : State) (c pop : Nat) (p : Pred) : State :=
  s.postOp c pop (byFmt pop (fun _ _ _ x y _ => let r := compareVal p x y; (b2n r.1, r.2)))

/-- COMPARE EQ. -/
def execCompareEq (c : Nat) (s : State) : Res := onCore s (fun s => s.compareCmd c 0x10 .eq)
/-- COMPARE NE. -/
def execCompareNe (c : Nat) (s : State) : Res := onCore s (fun s => s.compareCmd c 0x11 .ne)
/-- COMPARE LT. -/
def execCompareLt (c : Nat) (s : State) : Res := onCore s (fun s => s.compareCmd c 0x12 .lt)
/-- COMPARE LE. -/
def execCompareLe (c : Nat) (s : State) : Res := onCore s (fun s => s.compareCmd c 0x13 .le)
/-- COMPARE GT. -/
def execCompareGt (c : Nat) (s : State) : Res := onCore s (fun s => s.compareCmd c 0x14 .gt)
/-- COMPARE GE. -/
def execCompareGe (c : Nat) (s : State) : Res := onCore s (fun s => s.compareCmd c 0x15 .ge)
/-- COMPARE UNORD. -/
def execCompareUnord (c : Nat) (s : State) : Res := onCore s (fun s => s.compareCmd c 0x16 .unord)

/-- R77: a selection, rounded where the target is narrower. -/
def State.selectCmd (s : State) (c pop : Nat) (k : Sel) : State :=
  s.postOp c pop (byFmt pop (fun ctx pt i x y _ => roundVF ctx pt i (selectVal k x y)))

/-- MINIMUM. -/
def execMinimum (c : Nat) (s : State) : Res := onCore s (fun s => s.selectCmd c 0x18 .minimum)
/-- MAXIMUM. -/
def execMaximum (c : Nat) (s : State) : Res := onCore s (fun s => s.selectCmd c 0x19 .maximum)
/-- MINIMUMNUMBER. -/
def execMinimumNumber (c : Nat) (s : State) : Res := onCore s (fun s => s.selectCmd c 0x1A .minimumNumber)
/-- MAXIMUMNUMBER. -/
def execMaximumNumber (c : Nat) (s : State) : Res := onCore s (fun s => s.selectCmd c 0x1B .maximumNumber)

/-- DIVIDE, correctly rounded (R106). -/
def execDivide (c : Nat) (s : State) : Res :=
  onCore s (fun s => s.postOp c 0x20 (byFmt 0x20 (arith2 (fun _ x y => divVal x y))))

/-- SQRT, correctly rounded (R106). -/
def execSqrt (c : Nat) (s : State) : Res :=
  onCore s (fun s => s.postOp c 0x21 (byFmt 0x21 (fun ctx pt i x _ _ => roundVF ctx pt i (sqrtVal x))))

/-- R106: exp or log: correctly rounded, but in FP64 within 1 ulp, by a free choice among what the rule admits. (log 11, DESIGN CHOICE) -/
def near (op : Val → VF) (free : Nat → Nat) : RCtx → Fmt → Nat → Val → Val → Val → Nat × Nat :=
  fun ctx pt i x _ _ =>
    let v := op x
    match v.1 with
    | .fin _ m _ =>
      if pt = .fp64 ∧ 1 < m then
        let q := near64 (ctx.rnd i) ctx.om (free (convertVal .fp64 .rne false x).1) v.1
        (q.1, orF v.2 q.2)
      else roundVF ctx pt i v
    | _ => roundVF ctx pt i v

/-- EXP. -/
def execExp (c : Nat) (s : State) : Res := onCore s (fun s => s.postOp c 0x22 (byFmt 0x22 (near expVal Config.exp64)))

/-- LOG. -/
def execLog (c : Nat) (s : State) : Res := onCore s (fun s => s.postOp c 0x23 (byFmt 0x23 (near logVal Config.log64)))

/-- RELU (R134): maximum of the operand and +0. -/
def execRelu (c : Nat) (s : State) : Res :=
  onCore s (fun s => s.postOp c 0x28 (byFmt 0x28 (fun ctx pt i x _ _ => roundVF ctx pt i (selectVal .maximum x (.fin false 0 0)))))

/-- R134: an activation function. -/
def State.actCmd (s : State) (c pop : Nat) (k : Act) : State :=
  s.postOp c pop (byFmt pop (fun ctx pt i x _ _ => actResult k pt (ctx.rnd i) ctx.om x))

/-- GELU. -/
def execGelu (c : Nat) (s : State) : Res := onCore s (fun s => s.actCmd c 0x29 .gelu)
/-- SILU. -/
def execSilu (c : Nat) (s : State) : Res := onCore s (fun s => s.actCmd c 0x2A .silu)
/-- SIGMOID. -/
def execSigmoid (c : Nat) (s : State) : Res := onCore s (fun s => s.actCmd c 0x2B .sigmoid)
/-- TANH. -/
def execTanh (c : Nat) (s : State) : Res := onCore s (fun s => s.actCmd c 0x2C .tanh)

/-- REDUCE SUM (R133): an FP64 source is first rounded into FP32. (log 73, DESIGN CHOICE) -/
def execReduceSum (c : Nat) (s : State) : Res :=
  onCore s (fun s => s.postOp c 0x30 (fun ctx pt a x _ _ =>
    let r := ctx.rnd a
    let xs := x.map (toFp32 r ctx.om)
    let q := reduceSum pt r ctx.om (xs.map (·.1))
    ⟨[q.1], none, xs.foldl (fun z v => orF z v.2) q.2⟩))

/-- R133: the selected value of 16, rounded where the target is narrower. -/
def State.reduceSelCmd (s : State) (c pop : Nat) (k : Sel) : State :=
  s.postOp c pop (fun ctx pt a x _ _ => let q := roundVF ctx pt a (reduceSel k x); ⟨[q.1], none, q.2⟩)

/-- REDUCE MAX. -/
def execReduceMax (c : Nat) (s : State) : Res := onCore s (fun s => s.reduceSelCmd c 0x31 .maximum)
/-- REDUCE MIN. -/
def execReduceMin (c : Nat) (s : State) : Res := onCore s (fun s => s.reduceSelCmd c 0x32 .minimum)

/-- FLAG CAPTURE (R135): the flag word goes to the berth word that WD names, at t + 1. -/
def execFlagCapture (c : Nat) (s : State) : Res := onCore s fun s =>
  match s.postEnt c 0x3F with
  | none => s
  | some e =>
    let wd := 24 + bits (postField e.word) 18 2
    let wk := s.walkCfg c wd
    let st := s.berthStore c wk.berth
    let s' := s.modClu c (fun k => (coresOf e.mask).foldl (fun k core =>
      let a := (wk.point (s.word .CLU_BPD [c, core]) 0 (e.posOf wd)).1
      k.push (e.cyc + 1) e.cyc (.capture core st (s.elemPos c wk.berth 64 a / 8))) k)
    s'.doneField c 3

end Sys2Proof.Machine
end

