-- ==== Sys2Proof/Machine/Control.lean ====
section
/-! DEFINITION. The control strokes at issue (R148, R162-R169) and a leg that passes its limit (R180). -/

namespace Sys2Proof.Machine

/-- The present stroke where it is the control stroke `cop` and is still to be carried out. -/
def State.ctlEnt (s : State) (c cop : Nat) : Option Ent :=
  match s.headEnt c with
  | some e => if strokeKind e.word == 1 && strokeCop e.word == cop && bitAt e.todo 0 then some e else none
  | none => none

/-- Carry out the present control stroke. -/
def State.control (s : State) (c cop : Nat) (f : Ent → State → State) : State :=
  match s.ctlEnt c cop with
  | some e => f e (s.doneField c 0)
  | none => s

/-- NOP. -/
def execNop (c : Nat) (s : State) : Res := onCore s (fun s => s.control c 0x00 (fun _ s => s))

/-- IDLE: the stroke occupies N + 1 schedule cycles (R148). -/
def execIdle (c : Nat) (s : State) : Res := onCore s (fun s => s.control c 0x01 (fun _ s => s))

/-- LOOP: the level opens as the stroke retires (R163); CLU_PLOOP shows it from the next schedule cycle. -/
def execLoop (c : Nat) (s : State) : Res :=
  onCore s (fun s => s.control c 0x02 (fun e s => s.setLoops c (listSet (s.loopsOf c) (bits e.word 246 2)
    ⟨true, e.addr + 1, e.addr + 1 + bits e.word 220 10, bits e.word 230 16, 0⟩)))

/-- SETMASK. -/
def execSetmask (c : Nat) (s : State) : Res :=
  onCore s (fun s => s.control c 0x03 (fun e s => s.setWord .CLU_PMASK [c, bits e.word 245 3] (bits e.word 0 64)))

/-- The registers of a walk that an image loads, in the order of its words. -/
def walkRegs : List RegId :=
  [.CLU_WCFG, .CLU_WBOX, .CLU_WDIM0, .CLU_WDIM1, .CLU_WDIM2, .CLU_WDIM3, .CLU_WDIM4]

/-- A word of a register that keeps only its defined fields (R16). -/
def definedBits (r : RegId) (v : Nat) : Nat :=
  (regFields r).foldl (fun a f => a + bits v f.lo f.w * 2 ^ f.lo) 0

/-- LDWALK (R171): words 0 to 6 of the image load the walk, and its position becomes 0. -/
def execLdwalk (c : Nat) (s : State) : Res := onCore s fun s =>
  match s.ctlEnt c 0x04 with
  | none => s
  | some e =>
    let st := s.berthStore c (bits e.word 236 7)
    let lo := s.berthBase c (bits e.word 236 7) + bits e.word 216 20
    let s := (s.eccRead c st lo (lo + 64)).1.doneField c 0
    let w := bits e.word 243 5
    let img := ((s.clu c).store st).bytes lo 64
    let s := (walkRegs.zip (List.range 7)).foldl (fun a p =>
      a.setWord p.1 [c, w] (definedBits p.1 (leAt img (8 * p.2) 8))) s
    s.setWord .CLU_WPOS [c, w] 0

/-- RSTWALK. -/
def execRstwalk (c : Nat) (s : State) : Res :=
  onCore s (fun s => s.control c 0x05 (fun e s =>
    ((List.range 28).filter (bitAt (bits e.word 0 28))).foldl (fun a w => a.setWord .CLU_WPOS [c, w] 0) s))

/-- LDBASE (R179): the eight words of logical core n stand at bytes 64 n of the table. -/
def execLdbase (c : Nat) (s : State) : Res := onCore s fun s =>
  match s.ctlEnt c 0x06 with
  | none => s
  | some e =>
    let st := s.berthStore c (bits e.word 241 7)
    let lo := s.berthBase c (bits e.word 241 7) + bits e.word 221 20
    let s := (s.eccRead c st lo (lo + 4096)).1.doneField c 0
    let m := (s.clu c).store st
    (List.range 64).foldl (fun a n => (List.range 8).foldl (fun a k =>
      a.setWord (baseReg k) [c, n] (definedBits (baseReg k) (leNat (m.bytes (lo + 64 * n + 8 * k) 8)))) a) s

/-- The cores of a mask register (R152). -/
def State.maskReg (s : State) (c m : Nat) : Nat := if m = 0 then 2 ^ 64 - 1 else s.word .CLU_PMASK [c, m]

/-- ADDBASE (R162): OFF wraps within its 21 bits. -/
def execAddbase (c : Nat) (s : State) : Res :=
  onCore s (fun s => s.control c 0x07 (fun e s =>
    let r := baseReg (bits e.word 245 3)
    (coresOf (s.maskReg c (bits e.word 242 3))).foldl (fun a n =>
      let v := a.word r [c, n]
      a.setWord r [c, n] (putBits v 0 21 (bits v 0 21 + bits e.word 221 21))) s))

/-- TBIND. -/
def execTbind (c : Nat) (s : State) : Res :=
  onCore s (fun s => s.control c 0x08 (fun e s => s.setWord .CLU_PTBIND [c, bits e.word 245 3]
    (2 ^ 17 + bits e.word 244 1 * 2 ^ 16 + bits e.word 228 16)))

/-- TIDEWAIT (R165): its condition was tested 12 schedule cycles ahead and held the partition until it was met; the stroke
itself changes no tally. -/
def execTidewait (c : Nat) (s : State) : Res := onCore s (fun s => s.control c 0x09 (fun _ s => s))

/-- TIDE (R166): the pilot arrives, its expected-count list stands to be copied, and the partition holds from the next
schedule cycle until release. -/
def execTide (c : Nat) (s : State) : Res :=
  onCore s (fun s => s.control c 0x0A (fun e s =>
    let s := s.setFld F.CLU_PSTAT.STATE [c] 4
    s.modClu c (fun k => { k with tideNow := true,
                                  tideList := some (bits e.word 241 7, bits e.word 221 20, bits e.word 213 8) })))

/-- SELFENQ (R167): the image stands to be copied, in the order of schedule cycles and, within one, of cluster indices. -/
def execSelfenq (c : Nat) (s : State) : Res :=
  onCore s (fun s => s.control c 0x0B (fun e s =>
    s.modPart (s.partOf c) (fun q =>
      { q with selfq := insertBy (fun x => x.1 * 2048 + x.2.2.1) (e.cyc, s.period, c, bits e.word 241 7, bits e.word 221 20)
                          q.selfq })))

/-- LEG (R168, R201, R203, R204, R211, R236, R139): the leg ends and the next begins; the pilot records what a replay
restores. -/
def execLeg (c : Nat) (s : State) : Res :=
  onCore s (fun s => s.control c 0x0C (fun e s =>
    let lock := (List.range 128).filter (bitAt (bits e.word 0 128))
    let s := s.setLocks c lock
    let llk := lock.filter (fun h => s.bit F.CLU_BERTH.LLK [c, h])
    -- windows with CRLEG reload their credit
    let s := (List.range 32).foldl (fun a g =>
      if a.bit F.CLU_GWCFG.CRLEG [c, g] then
        a.setFld F.CLU_GWCRD.CRD [c, g] (a.fld F.CLU_GWCRD.CRINIT [c, g]) else a) s
    let crd := ((List.range 32).filter (fun g => s.bit F.CLU_GWCFG.CHAIN [c, g])).map (fun g =>
      (g, s.word .CLU_GWCRD [c, g]))
    let s := (List.range 2).foldl (fun a g => a.setFld F.CHN_GWPTR.CPTR [c, g] (a.fld F.CHN_GWPTR.RPTR [c, g])) s
    let s := (List.range 64).foldl (fun a n => a.setWord .CLU_CFSNAP [c, n] (a.word .CLU_CFLAG [c, n])) s
    let s := ((s.setFld F.CLU_STSTAT.SHA [c] 1).setFld F.CLU_PSHDW.DIRTY [c] 0).setFld F.CLU_PSHDW.LEGNO [c]
      (bits e.word 232 16)
    let regs := s.snapRegs c
    s.modClu c (fun k =>
      { k with dirty := [], legNow := some (bits e.word 232 16),
               snap := some ⟨bits e.word 232 16, e.cyc, e.addr, regs, llk, crd⟩ })))

/-- END (R169): the pilot issues nothing more and its feeders fetch nothing more. -/
def execEndStroke (c : Nat) (s : State) : Res :=
  onCore s (fun s => s.control c 0x3F (fun _ s =>
    (s.setFld F.CLU_PSTAT.STATE [c] 5).modClu c (fun k => { k with fetches := [] })))

/-- LEG_LIMIT_OVERRUN (R180, R181): a leg of a cluster of the partition has passed its LMAX; the stop falls 12 schedule
cycles later. -/
def execLegLimitOverrun (p : Fin 16) (s : State) : Res := onCore s fun s =>
  let q := s.part p.val
  let late := q.cls.filter (fun c =>
    match (s.clu c).snap with
    | some sn => decide (s.fld F.CLU_PLEGMAX.LMAX [c] < q.scyc - sn.cyc) && decide (s.pilot c ≠ 5)
    | none => false)
  match late with
  | c :: _ =>
    if q.live && q.stopAt.isNone then
      let pc := s.fld F.CLU_PSTAT.PC [c]
      let s := forClusters late (fun c a =>
        a.setWord .CLU_PFAULT [c] (0x10 * 2 ^ 56 + a.fld F.CLU_PSTAT.PC [c] * 2 ^ 32 + q.scyc % 2 ^ 32)) s
      s.modPart p.val (fun q => { q with stopAt := some (q.scyc + 12, ⟨0x10, c, 0x10, 0, pc, q.scyc⟩) })
    else s
  | [] => s

end Sys2Proof.Machine
end

