-- ==== Sys2Proof/Machine/Access.lean ====
section
/-! DEFINITION. Who may make a register or dictionary access (R19, R474, R475, R517, R530) and the status it reports
(R480). -/

namespace Sys2Proof.Machine

/-- The status codes of R480. -/
abbrev stOk : Nat := 0
abbrev stDenied : Nat := 1
abbrev stBusy : Nat := 2
abbrev stInvalid : Nat := 3
abbrev stAlign : Nat := 4
abbrev stUnmapped : Nat := 5
abbrev stSealed : Nat := 6
abbrev stNoent : Nat := 7
abbrev stReadonly : Nat := 8
abbrev stType : Nat := 9
abbrev stFormat : Nat := 10

/-- The rights a requester holds (R474). -/
structure Rights where
  dadmin : Bool
  padmin : Bool
  update : Bool
  debug : Bool
  pmask : Nat
  deriving DecidableEq, Repr

/-- Entry `k` (from 1) of the rights table (R475). -/
def State.rightsEntry (s : State) (k : Nat) : Nat :=
  match SMap.find s.od (0x7100 * 256 + k) with
  | some b => leNat b
  | none => if k = 1 then 0xA0420780FFFF0000 else if k = 2 then 0xC0420780FFFF0000 else 0

/-- R474: a requester matches an entry of the rights table. -/
def rightsMatch (e : Nat) (q : Requester) : Bool :=
  bitAt e 63 && (match q with
    | .i3c => bits e 61 2 == 1 || (bits e 61 2 == 0 && bitAt e 54 && bitAt e 49)
    | .torec _ src part _ =>
      (bits e 61 2 == 0 || bits e 61 2 == 2) && (bitAt e 54 || bits e 55 6 == src.toNat) &&
        (bitAt e 49 || bits e 50 4 == part.toNat)
    | _ => false)

/-- The rights of a requester: firmware holds all; the test access port all but UPDATE (R517); any other the OR of the
entries it matches. -/
def State.rightsOf (s : State) (q : Requester) : Rights :=
  match q with
  | .fw => ⟨true, true, true, true, 0xFFFF⟩
  | .tap => ⟨true, true, false, true, 0xFFFF⟩
  | _ =>
    let w := (List.range 32).foldl (fun a k =>
      let e := s.rightsEntry (k + 1)
      if rightsMatch e q then Nat.lor a e else a) 0
    ⟨bitAt w 42, bitAt w 41, bitAt w 40, bitAt w 39, bits w 16 16⟩

/-- Some right at all. -/
def Rights.any (r : Rights) : Bool := r.dadmin || r.padmin || r.update || r.debug || r.pmask != 0

/-- The right of partition `p`. -/
def Rights.ofPart (r : Rights) (p : Nat) : Bool := bitAt r.pmask p

/-- The requester is firmware. -/
def isFw (q : Requester) : Bool := match q with | .fw => true | _ => false

/-- R530: transport × 256 + position. -/
def transportOf (q : Requester) : Nat :=
  match q with
  | .i3c => 0x00FF
  | .torec _ src _ _ => 0x100 + src.toNat
  | .tap => 0x02FF
  | .fw => 0x03FF

/-- The access ends with a status. (log 7, DESIGN CHOICE) -/
def State.status (s : State) (st : Nat) : State := { s with lastStat := st }

/-- R474, R494: an access refused for lack of rights; `what` is the register address, or index × 256 + subindex. -/
def State.deny (s : State) (q : Requester) (what : Nat) : State :=
  ((s.incFld F.MGT_CNT.DDENY [] 1).postOnce 0x090B 0x090B 0x01 partNone locNone (transportOf q) what).status stDenied

/-- R493: the configuration is sealed. -/
def State.sealed (s : State) : Bool := s.bit F.ID_SEC.SEALED []

/-- R15, R17, R527: a word written to a register field by field; the status is SEALED where an RWS field would change after
the seal. -/
def State.writeFields (s : State) (r : RegId) (idx : List Nat) (v : Nat) : State :=
  let old := s.word r idx
  let sealed := s.sealed
  let new := (regFields r).foldl (fun w f =>
    let x := bits v f.lo f.w
    let o := bits old f.lo f.w
    let y := match f.acc with
      | .rw => x
      | .rws => if sealed then o else x
      | .w1c => o - Nat.land o x
      | _ => o
    putBits w f.lo f.w y) old
  let bad := sealed && (regFields r).any (fun f => f.acc == .rws && bits v f.lo f.w != bits old f.lo f.w)
  (s.setWord r idx new).status (if bad then stSealed else stOk)

end Sys2Proof.Machine
end

