-- ==== Sys2Proof/Machine/Store.lean ====
section
/-! DEFINITION. The cluster stores outside the schedule: gangway windows and remote writes (R206-R212), zeroing (R195,
R197-R200, R205), scrubbing and write-back (R189-R191), and the cluster registers that have write rules of their own
(R141, R180, R208, R211, R259). -/

namespace Sys2Proof.Machine

/-! ### Zeroing (R195, R197-R200) -/

/-- R214: the zeroing flags of CLU_STSTAT follow the ranges still to be cleared. -/
def State.zeroFlags (s : State) (c : Nat) : State :=
  let z := fun (k : Nat) => b2n ((s.clu c).zr.any (fun r => r.store == k))
  s.setFlds [c] [(F.CLU_STSTAT.ZW, z 0), (F.CLU_STSTAT.ZA, z 1), (F.CLU_STSTAT.ZP, z 2), (F.CLU_STSTAT.ZSH, z 3)]

/-- R207: window `g` of cluster `c` has closed, so that it is no longer one the front end opened. -/
def State.notOpened (s : State) (c g : Nat) : State :=
  let p := s.partOf c
  if (s.front p).opened.contains (c, g) then s.modFront p (fun f => { f with opened := f.opened.filter (· != (c, g)) }) else s

/-- Close every window of a cluster that `p` accepts. -/
def State.closeWindows (s : State) (c : Nat) (p : Nat → Bool) : State :=
  (List.range 32).foldl (fun a g =>
    if a.bit F.CLU_GWCFG.OPEN [c, g] && p (a.fld F.CLU_GWCFG.BERTH [c, g]) then
      ((a.setFld F.CLU_GWCFG.OPEN [c, g] 0).setFld F.CLU_BERTH.GWO [c, a.fld F.CLU_GWCFG.BERTH [c, g]] 0).notOpened c g
    else a) s

/-- R195: a berth in use is released: it enters ZEROING, its windows close, and its range waits to be cleared. -/
def State.releaseBerth (s : State) (c h : Nat) : State :=
  if s.bit F.CLU_BERTH.VAL [c, h] && !s.bit F.CLU_BERTH.ZPND [c, h] then
    let lo := s.fld F.CLU_BERTH.BASE [c, h]
    let hi := lo + s.fld F.CLU_BERTH.LEN [c, h]
    let st := s.berthStore c h
    let s := (s.flushWrites c).closeWindows c (· == h)
    let s := s.setFlds [c, h] [(F.CLU_BERTH.ZPND, 1), (F.CLU_BERTH.RES, 0)]
    let s := s.modClu c (fun k => { k with zr := k.zr ++ [⟨st, lo, hi, [], some h⟩], imgs := k.imgs.filter (· != h) })
    s.zeroFlags c
  else s

/-- R199, R205, R227: a cluster leaves its partition: its ports and windows close, and every store waits to be cleared. -/
def State.leavePartition (s : State) (c : Nat) : State :=
  let s := (s.flushWrites c).closeWindows c (fun _ => true)
  let s := (List.range 128).foldl (fun a h =>
    if a.bit F.CLU_BERTH.VAL [c, h] then a.setFlds [c, h] [(F.CLU_BERTH.ZPND, 1), (F.CLU_BERTH.RES, 0)] else a) s
  let s := s.setFlds [c] [(F.CHN_RCFG.PEN, 0)]
  let s := s.setFlds [c] [(F.CLU_STSTAT.INP, 0), (F.CLU_STSTAT.CPART, 0), (F.CLU_STSTAT.CGEN, 0), (F.CLU_STSTAT.SHA, 0),
    (F.CLU_STSTAT.RST, 0)]
  let s := s.modClu c (fun k =>
    { k with zr := [⟨0, 0, 4096, [], none⟩, ⟨1, 0, 2048, [], none⟩, ⟨2, 0, 1024, [], none⟩, ⟨3, 0, 1024, [], none⟩],
             leaving := true, imgs := [], snap := none, dirty := [] })
  s.zeroFlags c

/-- A granule of a range that is still to be cleared. -/
def ZRange.holds (r : ZRange) (g : Nat) : Bool := decide (r.lo ≤ g) && decide (g < r.hi) && !r.cleared.contains g

/-- The two banks of a granule of a store of `banks` banks. -/
def granBanks (banks g : Nat) : List Nat := [2 * g % banks, (2 * g + 1) % banks]

/-- The first granule from `g` on, of the next `n`, that is pending in some range and whose banks are not busy. -/
def nextGran (rs : List ZRange) (banks : Nat) (busy : List Nat) : Nat → Nat → Option Nat
  | 0, _ => none
  | n + 1, g =>
    if rs.any (·.holds g) && !(granBanks banks g).any busy.contains then some g else nextGran rs banks busy n (g + 1)

/-- R198: the granules cleared in one ccy: pending ones in ascending order whose two banks are idle and not yet taken, at most
`n`. -/
def clearGrans (rs : List ZRange) (banks hi : Nat) : Nat → Nat → List Nat → List Nat
  | 0, _, _ => []
  | n + 1, g, busy =>
    match nextGran rs banks busy (hi - g) g with
    | some x => x :: clearGrans rs banks hi n (x + 1) (granBanks banks x ++ busy)
    | none => []

/-- Granules of a range are clear; its start moves past those that lead it. -/
def ZRange.took (r : ZRange) (gs : List Nat) : ZRange :=
  let r := { r with cleared := gs.filter r.holds ++ r.cleared }
  r.cleared.foldl (fun r _ =>
    if r.cleared.contains r.lo then { r with lo := r.lo + 1, cleared := r.cleared.filter (· != r.lo) } else r) r

/-- ZERO_ENGINE_CLEAR (R198): the engine of a store clears, in one ccy, pending granules in ascending order whose two banks
are idle, at most 8 in the W- and A-store and 4 in the P-store and the shadow. The schedule's banks and those that elastic
uses have taken are busy, and `busy` lists any others that ferry reads take in this ccy. -/
def execZeroEngineClear (c : Nat) (store : Fin 4) (busy : List Nat) (s : State) : Res := onCore s fun s =>
  let st := store.val
  let banks := storeBanks st
  let k := s.clu c
  let rs := k.zr.filter (fun r => r.store == st)
  let lo := rs.foldl (fun m r => min m r.lo) 4096
  let hi := rs.foldl (fun m r => max m r.hi) 0
  let taken := busy ++ s.schedBanks c st ++ k.ebanks.filterMap (fun e => if e.1 = st then some e.2 else none)
  let gs := clearGrans rs banks hi (if st ≤ 1 then 8 else 4) lo taken
  let s := gs.foldl (fun a g => (a.modClu c (fun k =>
    (k.eccClear st (64 * g) (64 * g + 64)).setStore st ((k.store st).clear (64 * g) (64 * g + 64)))).takeBanks c st (64 * g) 64) s
  (s.modClu c (fun k => { k with zr := k.zr.map (fun r => if r.store = st then r.took gs else r) })).zeroFlags c

/-- The cluster registers that a cluster leaving its partition clears (R199), by offset in its block. -/
def leaveClears (off : Nat) : Bool :=
  -- flag words and snapshots
  (decide (0x1000 ≤ off) && decide (off < 0x2000) && (off % 0x40 == 0 || off % 0x40 == 8)) ||
  -- base registers, walks
  (decide (0x2000 ≤ off) && decide (off < 0x3700)) ||
  -- pilot registers but CLU_PLEGMAX
  (decide (0x3800 ≤ off) && decide (off < 0x3900) && off != 0x3820) ||
  -- segments; berths and their counts
  (decide (0x0D40 ≤ off) && decide (off < 0x0D80)) || decide (off < 0x0800) ||
  -- shadow status
  off == 0x0C08

/-- The cluster is clear and returns to the pool (R199, R356). -/
def State.clusterClear (s : State) (c : Nat) : State :=
  let b := 0x02000000 + c * 0x4000
  let s := { s with regs := s.regs.filter (fun e =>
    !(decide (b ≤ e.1) && decide (e.1 < b + 0x4000) && leaveClears (e.1 - b))) }
  s.modClu c (fun k =>
    { k with w := [], a := [], p := [], sh := [], ins := [], sail := [], links := [], lbuf := [], cells := [], blocks := [],
             slots := [], blanes := [], fetches := [], pend := [], look := [], dec := Dec.start 0, snap := none, dirty := [],
             zr := [], leaving := false, wb := [], ecc := [], elw := [], ebanks := [] })

/-- ZEROING_COMPLETE (R195, R199): every berth whose range is clear becomes FREE with its counts cleared; a cluster that
left its partition and is clear returns to the pool. -/
def State.zeroingDone (s : State) (c : Nat) : State :=
  let k := s.clu c
  let fin := k.zr.filter (fun r => decide (r.hi ≤ r.lo))
  let s := fin.foldl (fun a r => match r.berth with
    | some h => (a.setWord .CLU_BERTH [c, h] 0).setWord .CLU_BCNT [c, h] 0
    | none => a) s
  let s := (s.modClu c (fun k => { k with zr := k.zr.filter (fun r => !decide (r.hi ≤ r.lo)) })).zeroFlags c
  if (s.clu c).leaving && (s.clu c).zr.isEmpty then s.clusterClear c else s

/-! ### Scrubbing and write-back (R189-R191) -/

/-- R190: a scrub or a write-back that finds an uncorrectable error poisons the berth that holds the line, if any. -/
def State.passiveEcc (s : State) (c store line : Nat) : State :=
  ((s.clu c).eccIn store (32 * line) (32 * line + 32)).foldl (fun a e =>
    if e.2 = 2 then
      let a := a.countEcc c store e.1 true
      match a.berthAt c store (8 * e.1) with
      | some h => a.poison c h
      | none => a
    else a.countEcc c store e.1 false) s

/-- R191: the scrubber reads its next line of a store, once that line's bank is idle. -/
def State.scrubStore (s : State) (c st : Nat) : State :=
  let line := listGet 0 (s.clu c).scrub st
  if s.banksIdle c st (32 * line) 32 then
    let s := (s.passiveEcc c st line).takeBanks c st (32 * line) 32
    s.modClu c (fun k => { k with scrub := listSet k.scrub st ((line + 1) % (storeSize st / 32)) })
  else s

/-- SCRUB (R191): one line of each store, in ascending order, wrapping at the last. -/
def execScrub (c : Nat) (s : State) : Res := onCore s fun s =>
  if s.bit F.CLU_SCRUB.EN [c] && s.enabled c then (List.range 5).foldl (fun a st => a.scrubStore c st) s else s

/-- CORRECTED_LINE_WRITEBACK (R189): the oldest queued line is written back corrected once its bank is idle; an uncorrectable
word found there is R190's. -/
def execCorrectedLineWriteback (c : Nat) (s : State) : Res := onCore s fun s =>
  match (s.clu c).wb with
  | [] => s
  | (st, line) :: r =>
    if !s.banksIdle c st (32 * line) 32 then s
    else
    let s := s.takeBanks c st (32 * line) 32
    let ue := ((s.clu c).eccIn st (32 * line) (32 * line + 32)).filter (fun e => e.2 == 2)
    let s := s.modClu c (fun k =>
      { k with wb := r,
               ecc := k.ecc.filter (fun e => !(e.1 / 2 ^ 20 == st && e.1 % 2 ^ 20 / 4 == line && e.2 == 1)) })
    if ue.isEmpty then s else s.passiveEcc c st line

/-! ### Remote writes (R206-R212) -/

/-- The class numbers of event 0x0201. -/
def classNum (c : WClass) : Nat := match c with | .chain => 0 | .ferry => 1 | .land => 2

/-- R210: the drop reasons; numbers 1 to 6 are those of event 0x0201, 0 is STALE. -/
def dropFld (reason : Nat) : Fld :=
  match reason with
  | 1 => F.CLU_GWDROPA.NOWIN
  | 2 => F.CLU_GWDROPA.SRC
  | 3 => F.CLU_GWDROPA.BERTH
  | 4 => F.CLU_GWDROPB.LOCK
  | 5 => F.CLU_GWDROPB.CRED
  | 6 => F.CLU_GWDROPB.ALIGN
  | _ => F.CLU_GWDROPA.STALE

/-- The open window of a cluster that names a handle and contains a byte range of its berth. -/
def State.windowFor (s : State) (c h lo hi : Nat) : Option Nat :=
  (List.range 32).find? (fun g =>
    s.bit F.CLU_GWCFG.OPEN [c, g] && s.fld F.CLU_GWCFG.BERTH [c, g] == h &&
      decide (64 * s.fld F.CLU_GWCFG.OFF [c, g] ≤ lo) &&
      decide (hi ≤ 64 * (s.fld F.CLU_GWCFG.OFF [c, g] + s.fld F.CLU_GWCFG.LEN [c, g])))

/-- R210: judge a remote write: the window it lands through, or the reason it is dropped. -/
def State.judgeWrite (s : State) (w : RemoteWrite) : Nat ⊕ Nat :=
  let c := w.cluster
  let n := w.data.length
  let p := s.partOf c
  if w.off % 8 ≠ 0 ∨ n % 8 ≠ 0 ∨ n = 0 ∨ 64 < n ∨ 64 < w.off % 64 + n then .inr 6
  else if s.inPart c ∧ w.part = p ∧ w.gen.toNat ≠ s.fld F.CLU_STSTAT.CGEN [c] then .inr 0
  else
    match s.windowFor c w.handle w.off (w.off + n) with
    | none => .inr 1
    | some g =>
      let clsOk := match w.cls with
        | .chain => s.bit F.CLU_GWCFG.CHAIN [c, g]
        | .ferry => s.bit F.CLU_GWCFG.FERRY [c, g]
        | .land => s.bit F.CLU_GWCFG.LAND [c, g]
      let srcp := s.fld F.CLU_GWCFG.SRCP [c, g]
      let srcd := s.fld F.CLU_GWCFG.SRCD [c, g]
      let partOk := srcp == 0x1F || (srcp == 0x10 && w.part == p) || (decide (srcp < 0x10) && srcp == w.part)
      let dieOk := match w.cls with
        | .land => srcd == 0x3F || srcd == w.src.toNat
        | _ => true
      if !(clsOk && partOk && dieOk) then .inr 2
      else if srcp ≠ 0x10 ∧ srcp ≠ 0x1F ∧ w.gen.toNat ≠ s.fld F.CLU_GWCFG.SGEN [c, g] then .inr 0
      else if !s.resident c w.handle then .inr 3
      else if s.bit F.CLU_BERTH.LLK [c, w.handle] then .inr 4
      else if s.fld F.CLU_GWCRD.CRD [c, g] = 0 then .inr 5
      else .inl g

/-- R189, R203: the bytes of a gangway write reach a store; the first write of a leg to a P-store granule reads it for the
shadow. -/
def State.landBytes (s : State) (c st a : Nat) (d : Bytes) : State :=
  let copies := st = 2 && s.bit F.CLU_STSTAT.SHA [c] && !(s.clu c).dirty.contains (a / 64)
  let s := if copies then ((s.passiveEcc c 2 (2 * (a / 64))).passiveEcc c 2 (2 * (a / 64) + 1)).shadowCopy c (a / 64) else s
  s.modClu c (fun k => (k.eccClear st a (a + d.length)).setStore st ((k.store st).store a d))

/-- R186, R210: a remote write that passed takes its credit and lands: a chain write on its scheduled cycle, any other in the
next idle cycle of its banks. (log 77, DESIGN CHOICE) -/
def State.landWrite (s : State) (w : RemoteWrite) (g : Nat) : State :=
  let c := w.cluster
  let st := s.berthStore c w.handle
  let a := s.berthBase c w.handle + w.off
  let s := s.setFld F.CLU_GWCRD.CRD [c, g] (s.fld F.CLU_GWCRD.CRD [c, g] - 1)
  let s := s.incFld F.CLU_GWCRD.ACPT [c, g] 1
  let s := s.incFld F.CLU_BCNT.WACC [c, w.handle] 1
  if w.cls = .chain then s.landBytes c st a w.data
  else if s.banksIdle c st a w.data.length then (s.takeBanks c st a w.data.length).landBytes c st a w.data
  else s.modClu c (fun k => { k with elw := k.elw ++ [(st, a, w.data)] })

/-- R186: in a new ccy the gangway writes that wait land where their banks are idle, the oldest first. -/
def State.drainWrites (s : State) (c : Nat) : State :=
  let k := s.clu c
  if k.elw.isEmpty && k.ebanks.isEmpty then s
  else
    k.elw.foldl (fun a w =>
      if a.banksIdle c w.1 w.2.1 w.2.2.length then (a.takeBanks c w.1 w.2.1 w.2.2.length).landBytes c w.1 w.2.1 w.2.2
      else a.modClu c (fun k => { k with elw := k.elw ++ [w] })) (s.modClu c (fun k => { k with elw := [], ebanks := [] }))

/-- R210: the drop of a remote write: one counter, and an event the first time in a tide period for a reason other than
STALE. -/
def State.dropWrite (s : State) (w : RemoteWrite) (reason : Nat) : State :=
  let c := w.cluster
  let s := s.incFld (dropFld reason) [c] 1
  let s := if w.handle < 128 then s.incFld F.CLU_BCNT.DROP [c, w.handle] 1 else s
  if reason = 0 then s
  else
    s.postOnce (0x0201 * 2 ^ 16 + c * 8 + reason) 0x0201 0x20 (if s.inPart c then s.partOf c else partNone) c reason
      ((if w.handle < 128 then w.handle else 0xFF) * 2 ^ 16 + w.src.toNat * 2 ^ 8 + classNum w.cls)

/-- A remote write reaches a store (R210). -/
def State.remoteWrite (s : State) (w : RemoteWrite) : State :=
  match s.judgeWrite w with
  | .inl g => s.landWrite w g
  | .inr r => s.dropWrite w r

/-- REMOTE_WRITE. A write to a cluster that the grade does not enable has no effect (R12). -/
def execRemoteWrite (w : RemoteWrite) (s : State) : Res := onCore s fun s =>
  if s.enabled w.cluster then s.remoteWrite w else s

/-! ### Register writes with rules of their own -/

/-- R12, R215: a write to a window register of a cluster is admitted: by the right of the owning partition, or by firmware
alone while the cluster is outside every partition. -/
def State.windowRight (s : State) (q : Requester) (c : Nat) : Bool :=
  if s.inPart c then (s.rightsOf q).ofPart (s.partOf c) else isFw q

/-- R208: opening a window with this word is refused. -/
def State.openRefused (s : State) (c g v : Nat) : Bool :=
  let h := bits v 52 7
  let off := bits v 40 12
  let len := bits v 27 13
  let cls := bits v 60 3
  let overlaps := (List.range 32).any (fun i =>
    i != g && s.bit F.CLU_GWCFG.OPEN [c, i] && s.fld F.CLU_GWCFG.BERTH [c, i] == h &&
      decide (off < s.fld F.CLU_GWCFG.OFF [c, i] + s.fld F.CLU_GWCFG.LEN [c, i]) &&
      decide (s.fld F.CLU_GWCFG.OFF [c, i] < off + len))
  !s.resident c h || len == 0 || decide (s.fld F.CLU_BERTH.LEN [c, h] < off + len) || overlaps || cls == 0 ||
    (bitAt cls 2 && cls != 4) || (s.berthStore c h == 2 && cls != 4)

/-- R208: a write of CLU_GWCFG_g. -/
def State.gwcfgWrite (s : State) (q : Requester) (c g v : Nat) : State :=
  if !s.enabled c then s.status stUnmapped
  else if !s.windowRight q c then s.deny q (regAddr .CLU_GWCFG [c, g])
  else
    let old := s.word .CLU_GWCFG [c, g]
    let isOpen := bitAt old 63
    if bitAt v 63 then
      if isOpen then if v = old then s.status stOk else s.status stBusy
      else if s.openRefused c g v then s.status stInvalid
      else ((s.setWord .CLU_GWCFG [c, g] v).setFld F.CLU_BERTH.GWO [c, bits v 52 7] 1).status stOk
    else
      let s := s.setWord .CLU_GWCFG [c, g] v
      let h := bits old 52 7
      let still := (List.range 32).any (fun i => s.bit F.CLU_GWCFG.OPEN [c, i] && s.fld F.CLU_GWCFG.BERTH [c, i] == h)
      let s := if isOpen && s.bit F.CLU_BERTH.GWO [c, h] && !still then s.setFld F.CLU_BERTH.GWO [c, h] 0 else s
      (if isOpen then s.notOpened c g else s).status stOk

/-- WINDOW_OPEN (R208): a write whose OPEN is 1. -/
def execWindowOpen (q : Requester) (c : Nat) (g : Fin 32) (v : W64) (s : State) : Res := onCore s fun s =>
  if bitAt v.toNat 63 then s.gwcfgWrite q c g.val v.toNat else s

/-- WINDOW_CLOSE (R208): a write whose OPEN is 0. -/
def execWindowClose (q : Requester) (c : Nat) (g : Fin 32) (v : W64) (s : State) : Res := onCore s fun s =>
  if bitAt v.toNat 63 then s else s.gwcfgWrite q c g.val v.toNat

/-- R211: a write of CLU_GWCRD_g. -/
def State.gwcrdWrite (s : State) (q : Requester) (c g v : Nat) : State :=
  if !s.enabled c then s.status stUnmapped
  else if !s.windowRight q c then s.deny q (regAddr .CLU_GWCRD [c, g])
  else s.writeFields .CLU_GWCRD [c, g] v

/-- GWCRD_WRITE. -/
def execGwcrdWrite (q : Requester) (c : Nat) (g : Fin 32) (v : W64) (s : State) : Res :=
  onCore s (fun s => s.gwcrdWrite q c g.val v.toNat)

/-- R211: a write of CLU_GWADD_g. -/
def State.gwaddWrite (s : State) (q : Requester) (c g v : Nat) : State :=
  if !s.enabled c then s.status stUnmapped
  else if !s.windowRight q c then s.deny q (regAddr .CLU_GWADD [c, g])
  else (s.incFld F.CLU_GWCRD.CRD [c, g] (bits v 0 20)).status stOk

/-- GWADD_WRITE. -/
def execGwaddWrite (q : Requester) (c : Nat) (g : Fin 32) (v : W64) (s : State) : Res :=
  onCore s (fun s => s.gwaddWrite q c g.val v.toNat)

/-- R140, R141: a write of CLU_LMAP_n. -/
def State.lmapWrite (s : State) (q : Requester) (c n v : Nat) : State :=
  if !s.enabled c then s.status stUnmapped
  else if !(s.rightsOf q).dadmin then s.deny q (regAddr .CLU_LMAP [c, n])
  else if s.inPart c && !s.bit F.CLU_CSITE.FEN [c] then s.status stBusy
  else
    let fix := fun (x : Nat) => if 8 ≤ x then 0xF else x
    (s.setFlds [c, n] [(F.CLU_LMAP.BYP_A, fix (bits v 0 4)), (F.CLU_LMAP.BYP_B, fix (bits v 8 4))]).status stOk

/-- LMAP_WRITE. -/
def execLmapWrite (q : Requester) (c : Nat) (n : Fin 64) (v : W64) (s : State) : Res :=
  onCore s (fun s => s.lmapWrite q c n.val v.toNat)

/-- R180: LMAX of a LUS at the present CCLK. (log 76, DESIGN CHOICE) -/
def State.lmaxOf (s : State) (lus : Nat) : Nat := max 1 (min lus 400) * s.fld F.CLK_CCLK.CUR [] / 1000

/-- R180: a write of CLU_PLEGMAX. -/
def State.legmaxWrite (s : State) (q : Requester) (c v : Nat) : State :=
  if !s.enabled c then s.status stUnmapped
  else if !(s.rightsOf q).dadmin then s.deny q (regAddr .CLU_PLEGMAX [c])
  else if s.inPart c then s.status stBusy
  else
    let lus := bits v 32 9
    (s.setFlds [c] [(F.CLU_PLEGMAX.LUS, lus), (F.CLU_PLEGMAX.LMAX, s.lmaxOf lus)]).status stOk

/-- LEGMAX_LUS_WRITE. -/
def execLegmaxLusWrite (q : Requester) (c : Nat) (v : W64) (s : State) : Res := onCore s (fun s => s.legmaxWrite q c v.toNat)

/-- R259: a write of TDE_TAL_t. -/
def State.tallyWrite (s : State) (q : Requester) (t v : Nat) : State :=
  if !(s.rightsOf q).dadmin then s.deny q (regAddr .TDE_TAL [t])
  else
    let w := s.word .TDE_TAL [t]
    let s := s.setWord .TDE_TAL [t] (w - Nat.land w (bits v 60 4 * 2 ^ 60))
    if !s.bit F.TDE_TCFG.ASG [t] then s.status stOk
    else if (s.part (s.fld F.TDE_TCFG.OWNER [t])).live then s.status stBusy
    else
      let s := s.setFlds [t] [(F.TDE_TAL.VALUE, bits v 0 24), (F.TDE_TAL.PEND, 0)]
      (s.setWord .TDE_TLEG [t] 0).takeWaits.status stOk

/-- TALLY_VALUE_WRITE. -/
def execTallyValueWrite (q : Requester) (t : Fin 16384) (v : W64) (s : State) : Res :=
  onCore s (fun s => s.tallyWrite q t.val v.toNat)

end Sys2Proof.Machine
end

