-- ==== Sys2Proof/Machine/Hold.lean ====
section
/-! DEFINITION. The fetch sequencer (R175) and the hold tree: what every requester examines 12 ccy ahead, and the decision
(R123, R124, R165, R166, R178, R185, R231, R235, R238, R239, R245, R255, R273, R413). -/

namespace Sys2Proof.Machine

/-! ### The fetch sequencer -/

/-- R175: one idle bank reads the line of its first pending fetch; the line serves every pending fetch that needs it. -/
def Cluster.bankFetch (k : Cluster) (bank now : Nat) : Cluster :=
  let pend := k.fetchPend
  let inBank := fun (f : Fetch) => f.need.find? (fun l => l % 16 == bank)
  let line := pend.foldl (fun (a : Option (Nat × Nat)) p =>
    if p.2 then
      match inBank p.1 with
      | some l =>
        match a with
        | none => some (fetchKey p.1, l)
        | some b => if fetchKey p.1 < b.1 then some (fetchKey p.1, l) else a
      | none => a
    else a) none
  match line with
  | none => k
  | some (_, l) =>
    { k with fetches := pend.map (fun p =>
        if p.2 && p.1.need.contains l then
          let need := p.1.need.filter (· != l)
          if need.isEmpty then { p.1 with need := [], ready := some (now + 4), slice := some (k.sliceOf p.1) }
          else { p.1 with need := need }
        else p.1) }

/-- The slices due by `now` enter their buffers, each lane's in order (R114). -/
def Cluster.arrive (k : Cluster) (now : Nat) : Cluster :=
  let step := fun (a : Cluster × List Fetch × List Nat) (f : Fetch) =>
    let key := (f.core * 2 + f.row) * 8 + f.lane
    match f.ready, f.slice with
    | some r, some sl =>
      if r ≤ now ∧ !a.2.2.contains key then
        let b := SMap.get (BLane.mk none []) a.1.blanes key
        ({ a.1 with blanes := SMap.set (BLane.mk none []) a.1.blanes key { b with nxt := b.nxt ++ [sl] } }, a.2.1, a.2.2)
      else (a.1, a.2.1 ++ [f], key :: a.2.2)
    | _, _ => (a.1, a.2.1 ++ [f], key :: a.2.2)
  let r := k.fetches.foldl step (k, [], [])
  { r.1 with fetches := r.2.1 }

/-- W-store banks that the scheduled accesses of schedule cycle `t` take (R185, R186). -/
def State.busyBanks (s : State) (c t : Nat) : List Nat :=
  (((s.clu c).dec.books.filter (fun b => b.cyc == t)) ++ s.sailBooks c t).filterMap (fun b =>
    if b.store = 0 then some (b.line % 16) else none)

/-- B_FETCH (R175): the sequencer reads one line in a bank that the present ccy leaves idle. (log 77, DESIGN CHOICE) -/
def execBFetch (c : Nat) (bank : Fin 16) (s : State) : Res := onCore s fun s =>
  let p := s.partOf c
  let q := s.part p
  let held := match q.hold with | h :: _ => h.causes != 0 | [] => false
  if s.running c && !(s.clu c).fbanks.contains bank.val && (held || !(s.busyBanks c q.scyc).contains bank.val) then
    let before := (s.clu c).fetches
    let k' := (s.clu c).bankFetch bank.val q.pccy
    -- the line that was read, for its ECC
    let lines := nub ((before.zip k'.fetches).flatMap (fun p => p.1.need.filter (fun l => !p.2.need.contains l)))
    let s := lines.foldl (fun a l => (a.eccRead c 0 (32 * l) (32 * l + 32)).1) s
    s.modClu c (fun k => let k2 := k.bankFetch bank.val q.pccy; { k2 with fbanks := bank.val :: k2.fbanks })
  else s

/-- B_SLICE_ARRIVAL (R175): the slices whose time has come are in their buffers. -/
def execBSliceArrival (c : Nat) (s : State) : Res := onCore s fun s =>
  if s.running c then
    let now := (s.part (s.partOf c)).pccy
    s.modClu c (fun k => (k.arrive now).padReady now)
  else s

/-! ### Looking ahead -/

/-- The schedule cycle of slot `i` of the hold pipe. -/
def Part.cycAt (q : Part) (i : Nat) : Nat := q.scyc + ((q.hold.take i).filter (fun h => h.causes == 0)).length

/-- The stroke that occupies schedule cycle `t` of a cluster. -/
def State.entAt (s : State) (c t : Nat) : Option Ent :=
  (s.clu c).look.find? (fun e => decide (e.cyc ≤ t) && decide (t ≤ e.endc))

/-- The lanes of a stroke's B-advance retire their slices. -/
def Cluster.advanceRow (k : Cluster) (e : Ent) (row : Nat) : Cluster :=
  let r := rowField e.word row
  if strokeKind e.word == 0 && rowAccs r && predTrue (bits r 30 5) e.first e.last then
    (coresOf e.mask).foldl (fun k core => lanes8.foldl (fun k lane =>
      let key := (core * 2 + row) * 8 + lane
      let b := (SMap.get (BLane.mk none []) k.blanes key).advance true
      { k with blanes := SMap.set (BLane.mk none []) k.blanes key b }) k) k
  else k

/-- The cluster as the schedule will leave its slice buffers `n` ccy from now: at each ccy, arrivals, then the B-advances
of the strokes of that cycle, then one line in each idle bank (R123, R175). -/
def State.foresee (s : State) (c : Nat) (q : Part) : Nat → Nat → Cluster → Cluster
  | 0, j, k => k.arrive (q.pccy + j)
  | n + 1, j, k =>
    let now := q.pccy + j
    let held := (listGet ⟨0, true, true⟩ q.hold j).causes != 0
    let t := q.cycAt j
    let k := (k.arrive now).padReady now
    let k :=
      if held then k
      else
        match k.look.find? (fun e => e.cyc == t) with
        | some e =>
          let k := if j = 0 ∧ bitAt e.todo 1 = false then k else k.advanceRow e 0
          let k := if j = 0 ∧ bitAt e.todo 2 = false then k else k.advanceRow e 1
          k.padReady now
        | none => k
    let taken := (if held then [] else s.busyBanks c t) ++ (if j = 0 then k.fbanks else [])
    let k := ((List.range 16).filter (fun b => !taken.contains b)).foldl (fun k b => k.bankFetch b now) k
    State.foresee s c q n (j + 1) k

/-- R115, R123: the cores of a stroke whose B feeders of a row would be dry at slot `i`. -/
def State.dryAt (s : State) (c : Nat) (q : Part) (i : Nat) (e : Ent) (row : Nat) : List Nat :=
  let r := rowField e.word row
  if rowAccs r && predTrue (bits r 30 5) e.first e.last then
    if (s.clu c).fetches.any (fun f => f.row == row && decide (f.cyc ≤ e.cyc)) then
      let k := s.foresee c q i 0 (s.clu c)
      (coresOf e.mask).filter (fun core => lanes8.any (fun lane =>
        (SMap.get (BLane.mk none []) k.blanes ((core * 2 + row) * 8 + lane)).nxt.isEmpty))
    else []
  else []

/-! ### Stops found ahead -/

/-- R231: of two sailing faults that stop a partition before one cycle, the record carries that of the lower cluster index. -/
def lowerSail (e f : VEnd) : Bool := e.status == 0x11 && f.status == 0x11 && decide (e.clidx < f.clidx)

/-- A stop before schedule cycle `t`, where none falls earlier, or in the same cycle. -/
def State.stopBefore (s : State) (p t : Nat) (e : VEnd) : State :=
  s.modPart p (fun q => match q.stopAt with
    | some (u, f) => if t < u ∨ (t = u ∧ lowerSail e f = true) then { q with stopAt := some (t, e) } else q
    | none => { q with stopAt := some (t, e) })

/-- R181, R449: the voyage of partition `p` is to stop 12 schedule cycles ahead, or at once where a recovery has stopped it. -/
def State.stopAhead (s : State) (p : Nat) (e : VEnd) : State :=
  if s.voyaging p then s.stopBefore p ((s.part p).cycAt 12) e else (s.unfence p).stopVoyage p e

/-- R231: a sailing fault of a cluster: recorded, and the stop set. -/
def State.sailFault (s : State) (p c code port ent t stop : Nat) : State :=
  let s := s.setFlds [c] [(F.CHN_FAULT.CODE, code), (F.CHN_FAULT.PORT, port), (F.CHN_FAULT.ENT, ent),
    (F.CHN_FAULT.SCY, t % 2 ^ 32)]
  s.stopBefore p stop ⟨0x11, c, code, port, ent, t⟩

/-- The outward port of gateway `g` of a cluster, where it has one (R217, R232, R248). -/
def State.gwPort (s : State) (c g : Nat) : Option Nat :=
  let m := meshSize s.fuses.grade
  if g = 0 then if c / 50 = 0 then some 0 else if c / 50 + 1 = m.2 then some 1 else none
  else if c % 50 = 0 then some 3 else if c % 50 + 1 = m.1 then some 2 else none

/-- Source code of an output in a sailing entry: 0 N, 1 S, 2 E, 3 W, 4 local (R220). -/
def sailSource (ent port : Nat) : Nat := bits ent (125 - 3 * port) 3

/-- The sailing names input `port` for some output. -/
def sailReads (ent port : Nat) : Bool := (List.range 5).any (fun o => sailSource ent o == port + 1)

/-- R235, R255: the test of a landing-buffer read of schedule cycle `t`. -/
def State.examGateway (s : State) (p c g t : Nat) : State :=
  match s.sailing c t, s.gwPort c g with
  | some (ent, _, no), some port =>
    if s.fld F.CHN_GWCFG.MODE [c, g] == 1 && sailReads ent port && !(s.clu c).gwOk.contains (t, g) then
      let ty := s.fld F.CHN_GWCFG.FTALLY [c, g]
      if 1 ≤ s.tallySeen ty then
        (s.setFld F.TDE_TAL.PEND [ty] (s.fld F.TDE_TAL.PEND [ty] + 1)).modClu c (fun k => { k with gwOk := (t, g) :: k.gwOk })
      else s.sailFault p c 0x20 port no t t
    else s
  | _, _ => s

/-- R224, R231: the launch of schedule cycle `t` would read a berth not resident or a granule outside it. -/
def State.examLaunch (s : State) (p c t : Nat) : State :=
  match s.sailing c t with
  | some (ent, it, no) =>
    match sailLaunch ent it with
    | some (h, g) =>
      if s.resident c h && decide (g < s.fld F.CLU_BERTH.LEN [c, h]) then s else s.sailFault p c 0x23 4 no t t
    | none => s
  | none => s

/-- R178, R255: the guards of one unit of a stroke are tested: the state after it, with whether a source test and whether a
drain test failed. -/
def State.examGuards (s : State) (c : Nat) (e : Ent) (unit : Nat) : State × Bool × Bool :=
  (e.guards.filter (fun g => g.unit == unit && !g.ok)).foldl (fun a g =>
    let s := a.1
    if 1 ≤ s.tallySeen g.tally then
      let s := s.setFld F.TDE_TAL.PEND [g.tally] (s.fld F.TDE_TAL.PEND [g.tally] + 1)
      let s := s.modClu c (fun k =>
        { k with
          look := k.look.map (fun x => if x.cyc == e.cyc then
            { x with guards := x.guards.map (fun y => if y == g then { y with ok := true } else y) } else x)
          fetches := if g.bwalk then k.fetches.map (fun f =>
            if f.cyc == e.cyc && f.row == unit then { f with held := false } else f) else k.fetches })
      (s, a.2.1, a.2.2)
    else if g.drain then (s, a.2.1, true) else (s, true, a.2.2)) (s, false, false)

/-- Count a hold request in the cores of a list (R142). -/
def State.countRow (s : State) (c : Nat) (cores : List Nat) (f : Fld) : State :=
  cores.foldl (fun a n => a.incFld f [c, n] 1) s

/-- R123, R142: the requests of one lane row for the stroke of slot `i`: whether its feeders ask for a hold, which the cores
whose feeders are dry count (all of the mask where a source guard is unmet), and whether its drain port does. -/
def State.examRow (s : State) (c : Nat) (q : Part) (i : Nat) (e : Ent) (row : Nat) : State × Bool × Bool :=
  let g := s.examGuards c e row
  let s := g.1
  let dry := if g.2.1 then coresOf e.mask else s.dryAt c q i e row
  (s.countRow c dry (if row = 0 then F.CLU_CSTAT.DRYA else F.CLU_CSTAT.DRYB), g.2.1 || !dry.isEmpty, g.2.2)

/-- The landings whose slots carry words of a partition (R241); none for a partition of this die alone. -/
def State.slotLands (s : State) (p : Nat) : List Nat :=
  nub ((s.part p).cls.flatMap (fun c => (List.range 2).filterMap (fun g =>
    if s.fld F.CHN_GWCFG.MODE [c, g] == 2 then some (s.fld F.CHN_GWCFG.LAND [c, g]) else none)))

/-- R245: every other member's notice of the partition's next join has arrived. -/
def State.joinMet (s : State) (p : Nat) : Bool :=
  let q := s.part p
  (s.members p).all (fun j => decide (q.joinsSent ≤ listGet 0 q.joinsIn j))

/-- R37, R247: a landing that the partition sails through is overdrawn, or its partner's CCLK differs. -/
def State.landingHold (s : State) (p : Nat) : Bool :=
  (s.slotLands p).any (fun l => s.bit F.LND_STAT.OVRD [l] || s.cclkBad.contains l)

/-- A TIDE stroke stands before schedule cycle `t` and is not yet released (R166). -/
def State.tideHolds (s : State) (c : Nat) (q : Part) (t : Nat) : Bool :=
  (match q.tideAt with | some u => decide (u < t) | none => false) ||
    (s.clu c).look.any (fun e => strokeKind e.word == 1 && strokeCop e.word == 0x0A && decide (e.cyc < t))

/-- Some pilot's END stroke does not stand before schedule cycle `t`: the routers sail (R201, R226). -/
def State.sailsAt (s : State) (q : Part) (t : Nat) : Bool :=
  q.cls.any (fun c => let d := (s.clu c).dec; !d.ended || decide (t < d.cyc))

/-- R239: the examination of slot `i` by one cluster: the state after it and the causes it requests. -/
def State.examCluster (s : State) (p c i : Nat) : State × Nat :=
  let q := s.part p
  let t := q.cycAt i
  let sails := s.sailsAt q t
  let s := if sails then (s.examGateway p c 0 t).examGateway p c 1 t else s
  let tide := if s.tideHolds c q t then 16 else 0
  let r := match s.entAt c t with
    | some e =>
      if e.cyc = t then
        if strokeKind e.word = 0 then
          let a := s.examRow c q i e 0
          let b := a.1.examRow c q i e 1
          -- R142: the drain ports of both rows make one request of a core in one ccy
          let s := if a.2.2 || b.2.2 then b.1.countRow c (coresOf e.mask) F.CLU_CSTAT.DRNH else b.1
          let g := s.examGuards c e 2
          (g.1, (if a.2.1 || b.2.1 || g.2.1 then 4 else 0) + (if a.2.2 || b.2.2 || g.2.2 then 8 else 0))
        else if strokeCop e.word = 0x09 then
          let met := decide ((bits e.word 208 24 : Int) ≤ s.tallySeen (bits e.word 232 16))
          -- R37, R247: a landing that may not be used holds here
          (s, if met && !s.landingHold p then 0 else 2)
        else (s, 0)
      else (s, 0)
    | none => (s, 0)
  (if sails then r.1.examLaunch p c t else r.1, Nat.lor r.2 tide)

/-- Every pilot of the partition has decoded schedule cycle `t`, ended, or found a fault before it. -/
def State.decodedTo (s : State) (q : Part) (t : Nat) : Bool :=
  q.cls.all (fun c => let d := (s.clu c).dec; decide (t < d.cyc) || d.ended)

/-- R413: the bubble generator of a partition for one ccy. -/
def bubbleStep (acc d : Nat) : Nat × Bool := if 256 ≤ acc + d then (acc + d - 256, true) else (acc + d, false)

/-- R273, R274: the ramp holds ccy `j` of partition `p`: `wave` is the wave begun last, `ext` the ccy that lengthened waves. -/
def rampHolds (wave ext j p : Nat) : Bool :=
  let w := max wave ((j - ext) / 128)
  decide (w ≤ 15) && decide (w < (j + p) % 16)

/-- R245: a wait for the die's own condition at a join (bit 1 at a TIDEWAIT stroke, bit 4 at a TIDE stroke) is a join wait (bits
6 and 7), which is not sent as a hold. -/
def joinCauses (causes : Nat) : Nat :=
  Nat.lor (causes - Nat.land causes 18) ((if bitAt causes 1 then 64 else 0) + (if bitAt causes 4 then 128 else 0))

/-- R245: a through-sailing partition's joins at schedule cycle `t`, given the causes its own requesters raised: its notice
is sent once its own condition is met, and it holds until every die's has arrived. -/
def State.examJoin (s : State) (p t causes : Nat) : State × Nat :=
  if (s.members p).isEmpty then (s, causes)
  else
    let q := s.part p
    let wait := q.cls.any (fun c => match s.entAt c t with
      | some e => e.cyc == t && strokeKind e.word == 1 && strokeCop e.word == 0x09
      | none => false)
    if wait then
      if bitAt causes 1 then (s, joinCauses causes)
      else
        let s := if q.joinAt = some t then s
          else (s.modPart p (fun q => { q with joinAt := some t, joinsSent := q.joinsSent + 1 })).sendCtl p none 8 0 none
        (s, joinCauses (if s.joinMet p then causes else Nat.lor causes 2))
    else (s, joinCauses (if q.joinAt.isNone && !s.joinMet p then Nat.lor causes 16 else causes))

/-- R239: slot `i` of the hold pipe is examined, once every pilot has decoded its schedule cycle. -/
def State.examSlot (s : State) (p i : Nat) : State :=
  let q := s.part p
  let h := listGet ⟨0, true, true⟩ q.hold i
  let t := q.cycAt i
  if h.exam then s
  else if !s.decodedTo q t then s
  else
    let stopped := (match q.stopAt with | some (u, _) => decide (u ≤ t) | none => false) ||
      q.cls.any (fun c => match (s.clu c).dec.fault with | some f => decide (f.cyc ≤ t) | none => false)
    let r := if stopped then (s, 0)
      else q.cls.foldl (fun (a : State × Nat) c =>
        let x := a.1.examCluster p c i
        (x.1, Nat.lor a.2 x.2)) (s, 0)
    let r := if stopped then r else r.1.examJoin p t r.2
    let b := if i = 12 then bubbleStep q.bubAcc (s.fld F.PWR_PBUB.D [p]) else (q.bubAcc, false)
    let ramp := match q.rampJ with
      | some j => if rampHolds (s.fld F.TDE_RAMP.WAVE []) s.rampExt (j + i) p then 16 else 0
      | none => 0
    let causes := Nat.lor (Nat.lor h.causes r.2) ((if b.2 then 1 else 0) + ramp)
    r.1.modPart p (fun q =>
      { q with bubAcc := b.1, hold := listMod q.hold i (fun h => { h with exam := true, causes := causes }) })

/-- R124, R239: every slot not yet examined, the nearest first. In the course of a voyage that is slot 12 alone. (log 49, DEDUCED) -/
def State.examine (s : State) (p : Nat) : State := (List.range 13).foldl (fun a i => a.examSlot p i) s

/-- Some hold of this die, not one taken from another (R243), nor a wait at a join (R245). -/
def ownCauses (h : HoldSlot) : Bool := h.causes % 32 != 0

/-- R238, R243: the root forms the decision for the ccy 6 ahead, and a through-sailing partition sends its own hold. Slots
nearer than that, as at the start of a voyage, were decided before. -/
def State.decideHold (s : State) (p : Nat) : State :=
  (List.range 7).foldl (fun a i =>
    let q := a.part p
    let h := listGet ⟨0, true, true⟩ q.hold i
    if h.exam && !h.dec then
      let a := a.modPart p (fun q => { q with hold := listMod q.hold i (fun h => { h with dec := true }) })
      if ownCauses h then a.sendCtl p none 16 0 none else a
    else a) s

/-- HOLD_EXAMINE (R239). -/
def execHoldExamine (p : Fin 16) (s : State) : Res := onCore s (fun s => if s.voyaging p.val then s.examine p.val else s)

/-- HOLD_DECISION (R238). -/
def execHoldDecision (p : Fin 16) (s : State) : Res := onCore s (fun s => if s.voyaging p.val then s.decideHold p.val else s)

/-- The hold pipe moves on by one ccy. -/
def Part.shift (q : Part) : Part :=
  let ramp := match q.rampJ with
    | some j => some (j + 1)
    | none => none
  { q with pccy := q.pccy + 1, hold := (q.hold.drop 1) ++ [⟨0, false, false⟩], rampJ := ramp }

/-- R32, R240: a held ccy is counted in every cluster of the partition, once in all and once for each cause. -/
def State.countHold (s : State) (p causes : Nat) : State :=
  let s := { s with pow := { s.pow with
    bub := s.pow.bub + b2n (bitAt causes 0)
    miss := if bitAt causes 1 || bitAt causes 6 then SMap.upd 0 s.pow.miss p (· + 1) else s.pow.miss } }
  let add := fun (a : State) (c : Nat) (b : Nat) (f : Fld) =>
    if bitAt causes b || (b == 1 && bitAt causes 6) || (b == 4 && bitAt causes 7) then a.incFld f [c] 1 else a
  forClusters (s.part p).cls (fun c a =>
    let a := a.incFld F.CHN_HOLDT.TOTAL [c] 1
    let a := add a c 0 F.CHN_HOLDC_0.BUB
    let a := add a c 1 F.CHN_HOLDC_0.MISS
    let a := add a c 2 F.CHN_HOLDC_1.DRY
    let a := add a c 3 F.CHN_HOLDC_1.DRN
    let a := add a c 4 F.CHN_HOLDC_2.TIDE
    add a c 5 F.CHN_HOLDC_2.RMT) s

/-- A new ccy of partition `p` begins: its banks are free again, and the gangway writes that wait take those that are idle
(R186). -/
def State.newCcy (s : State) (p : Nat) : State := forClusters (s.part p).cls (fun c a => a.drainWrites c) s

/-- A held ccy of a partition (R31, R32): no stroke issues and no sailing advances; the ccy's elastic changes land. A stop
that is due falls (R443). -/
def State.heldCcy (s : State) (p : Nat) : State :=
  let s := (s.examine p).decideHold p
  match (s.part p).hold with
  | h :: _ =>
    if h.causes = 0 then s
    else if (s.part p).recDue then s.recover p
    else
      let s := (s.countHold p h.causes).framesOut p (s.part p).scyc
      let s := s.settleTallies p
      let s := forClusters (s.part p).cls (fun c a =>
        let a := if a.pilot c = 2 then a.setFld F.CLU_PSTAT.STATE [c] 3 else a
        a.modClu c (fun k => ({ k with fbanks := [] } : Cluster).padReady ((s.part p).pccy + 1))) s
      State.takeWaits <| State.newCcy (s.modPart p (fun q =>
        -- R413: a hold of another cause already saved that ccy
        let q := if bitAt h.causes 0 then q else { q with bubAcc := q.bubAcc - 256 }
        q.shift)) p
  | [] => s

end Sys2Proof.Machine
end

