-- ==== Sys2Proof/Machine/Chain.lean ====
section
/-! DEFINITION. A ccy in which a partition does not hold: its sailings (R216-R231, R235), the effects that land, the strokes
that retire, and the stops that fall (R181, R231); and ferry writes into landing buffers (R233, R234, R237). -/

namespace Sys2Proof.Machine

/-! ### Words -/

/-- Flip bits of a word's data. -/
def flipBits (d : Bytes) (bs : List Nat) : Bytes :=
  bs.foldl (fun d b => listMod d (b / 8) (fun x => x ^^^ BitVec.ofNat 8 (2 ^ (b % 8)))) d

/-- R216, R229: parity over each 64 data bits sees an odd number of flips in a group. -/
def parityBad (bs : List Nat) : Bool :=
  (List.range 8).any (fun g => (bs.filter (fun b => b / 64 == g)).length % 2 == 1)

/-- The upsets of a ccy that strike a word at an input of cluster `c` (R229). -/
def strike (fs : List Flip) (c : Nat) (l : LinkWord) : LinkWord :=
  let bs := fs.filterMap (fun f => match f with
    | .link c' pt b => if c' = c ∧ pt.val = l.port then some b.val else none
    | _ => none)
  if bs.isEmpty then l else { l with data := flipBits l.data bs, par := l.par || parityBad bs }

/-- Physical upsets of the present ccy strike the stores (R188). -/
def State.applyFlips (s : State) (p : Nat) (fs : List Flip) : State :=
  let q := s.part p
  fs.foldl (fun a f => match f with
    | .store c st w d =>
      if q.cls.contains c ∧ 8 * w < storeSize st.val then
        let up := fun (x : Nat) => if d || x != 0 then 2 else 1
        a.modClu c (fun k => { k with ecc := SMap.upd 0 k.ecc (st.val * 2 ^ 20 + w) up })
      else a
    | .link _ _ _ => a) s

/-! ### One router for one schedule cycle -/

/-- What the routers of a ccy send: words for links (with the cluster they reach) and words caught. -/
structure Routed where
  s : State
  words : List (Nat × LinkWord)
  /-- cluster, berth and granule, word -/
  caught : List (Nat × (Nat × Nat) × LinkWord)
  deriving DecidableEq, Repr

/-- The cluster that port `port` faces, where it faces one (R217). -/
def State.neighbour (s : State) (c port : Nat) : Option Nat :=
  let m := meshSize s.fuses.grade
  match port with
  | 0 => if c / 50 = 0 then none else some (c - 50)
  | 1 => if c / 50 + 1 < m.2 then some (c + 50) else none
  | 2 => if c % 50 + 1 < m.1 then some (c + 1) else none
  | _ => if c % 50 = 0 then none else some (c - 1)

/-- The port a word arrives on that left by `port`. -/
def facing (port : Nat) : Nat := match port with | 0 => 1 | 1 => 0 | 2 => 3 | _ => 2

/-- R227: the enable of a port. -/
def State.portOn (s : State) (c port : Nat) : Bool := bitAt (s.fld F.CHN_RCFG.PEN [c]) (3 - port)

/-- R229: parity of the words at a router's inputs: counted by port (the local input has no counter), and the word poisoned. A
port in error in the replay before as well fences the router (R228, R230). -/
def State.checkParity (s : State) (p c : Nat) (ls : List LinkWord) : State × List LinkWord :=
  ls.foldl (fun (a : State × List LinkWord) l =>
    if l.par then
      let s := match l.port with
        | 0 => a.1.incFld F.CHN_LERR.PARN [c] 1
        | 1 => a.1.incFld F.CHN_LERR.PARS [c] 1
        | 2 => a.1.incFld F.CHN_LERR.PARE [c] 1
        | 3 => a.1.incFld F.CHN_LERR.PARW [c] 1
        | _ => a.1
      (s.portError p c l.port, a.2 ++ [{ l with par := false, poison := true }])
    else (a.1, a.2 ++ [l])) (s, [])

/-- R233, R235: a landing-buffer read of gateway `g`: the entry at RPTR, with the pointer and the fill tally moved. -/
def State.readGateway (s : State) (c g t : Nat) : State × LinkWord :=
  let rp := s.fld F.CHN_GWPTR.RPTR [c, g]
  let d := SMap.get (List.replicate 64 0) (s.clu c).lbuf (g * 512 + rp % 512)
  let ty := s.fld F.CHN_GWCFG.FTALLY [c, g]
  let s := s.setFld F.CHN_GWPTR.RPTR [c, g] ((rp + 1) % 1024)
  let s := s.changeTally ty ⟨0, 1, 0, 0⟩
  let s := s.setFld F.TDE_TAL.PEND [ty] (s.fld F.TDE_TAL.PEND [ty] - 1)
  let s := s.modClu c (fun k => { k with gwOk := k.gwOk.filter (· != (t, g)) })
  (s, ⟨(s.gwPort c g).getD 0, t, t, d, false, crc16 d, false⟩)

/-- R224, R190: the granule that a launch reads, with its ECC errors found. -/
def State.launchWord (s : State) (c t h g : Nat) : State × LinkWord :=
  let st := s.berthStore c h
  let a := s.berthBase c h + 64 * g
  let d := ((s.clu c).store st).bytes a 64
  ((s.eccRead c st a (a + 64)).1, ⟨4, t, t, d, false, crc16 d, false⟩)

/-- R218, R220, R222: the router of cluster `c` in schedule cycle `t`. -/
def State.route (r : Routed) (p c t : Nat) (fs : List Flip) : Routed :=
  let s := r.s
  let k := s.clu c
  let here := k.links.filter (fun l => l.due == t)
  let s := if here.isEmpty then s else s.modClu c (fun k => { k with links := k.links.filter (fun l => l.due != t) })
  if s.bit F.CHN_RCFG.RFEN [c] then { r with s := s }
  else
    let here := here.filter (fun l => l.port == 4 || s.portOn c l.port)
    let sail := s.sailing c t
    let ent := match sail with | some x => x.1 | none => 0
    let iter := match sail with | some x => x.2.1 | none => 0
    let no := match sail with | some x => x.2.2 | none => 0
    -- the launched word, and landing-buffer reads
    let launch : State × List LinkWord := match sailLaunch ent iter with
      | some (h, g) => let x := s.launchWord c t h g; (x.1, [x.2])
      | none => (s, [])
    let gw := (List.range 2).foldl (fun (a : State × List LinkWord) g =>
      match a.1.gwPort c g with
      | some port =>
        if a.1.fld F.CHN_GWCFG.MODE [c, g] == 1 && sailReads ent port && a.1.portOn c port then
          let x := a.1.readGateway c g t
          (x.1, a.2 ++ [x.2])
        else a
      | none => a) (launch.1, [])
    let pc := gw.1.checkParity p c ((here ++ launch.2 ++ gw.2).map (strike fs c))
    let s := pc.1
    let ins := pc.2
    let inputOf := fun (o : Nat) =>
      let src := sailSource ent o
      if src = 0 then none else ins.find? (fun l => l.port + 1 == src)
    -- a valid word that no output selects
    let s := match ins.find? (fun l => !sailReads ent l.port) with
      | some l => s.sailFault p c 0x22 l.port no t (t + 12)
      | none => s
    let out := (List.range 4).foldl (fun (a : State × List (Nat × LinkWord)) o =>
      if sailSource ent o = 0 ∨ a.1.portOn c o = false then a
      else
        match a.1.neighbour c o with
        | some n =>
          match inputOf o with
          | some l => (a.1, a.2 ++ [(n, { l with port := facing o, due := t + 2, par := false })])
          | none => a
        | none =>
          let g := if o ≤ 1 then 0 else 1
          if a.1.fld F.CHN_GWCFG.MODE [c, g] = 2 then
            match inputOf o with
            | some l =>
              let land := a.1.fld F.CHN_GWCFG.LAND [c, g]
              let slot := a.1.fld F.CHN_GWCFG.SLOT [c, g]
              ((a.1.emit (.slot land slot (t % 256) l.data l.poison l.crc)).modLand land (fun k => { k with
                words := k.words ++ [(p, slot, l.data, l.poison)] }), a.2)
            | none => (a.1.sailFault p c 0x21 o no t (t + 12), a.2)
          else a) (s, [])
    let s := out.1
    let catch_ := sailCatch ent iter
    match catch_ with
    | none => { s := s, words := r.words ++ out.2, caught := r.caught }
    | some (h, g) =>
      match inputOf 4 with
      | some l => { s := s, words := r.words ++ out.2, caught := r.caught ++ [(c, (h, g), l)] }
      | none => { s := s.sailFault p c 0x21 4 no t (t + 12), words := r.words ++ out.2, caught := r.caught }

/-- R224, R230: a catch: a word that fails its checks is counted and is a link fault, charged to the leg in which the word was
launched (R442); any other is a remote write of class CHAIN from this die. -/
def State.catchWord (s : State) (p : Nat) (x : Nat × (Nat × Nat) × LinkWord) : State :=
  let c := x.1
  let l := x.2.2
  if l.poison || crc16 l.data != l.crc then
    let s := (s.incFld F.CHN_CERR.CRC [c] 1).linkFault p c
    if l.born < s.curLeg p then s.chargeLeg p l.born else s
  else
    s.remoteWrite
      { cluster := c, handle := x.2.1.1, off := 64 * x.2.1.2, data := l.data, cls := .chain,
        src := BitVec.ofNat 6 (s.fld F.ID_STRAP.POS []), part := p, gen := BitVec.ofNat 16 (s.fld F.CLU_STSTAT.CGEN [c]) }

/-! ### The boundary of a schedule cycle -/

/-- The bits of ECC word `w` of a store that the writes of a list cover, as a mask. -/
def coverOf (puts : List (Nat × Nat × Nat)) (st w : Nat) : Nat :=
  puts.foldl (fun m x =>
    if x.1 = st then
      let lo := max x.2.1 (64 * w)
      let hi := min (x.2.1 + x.2.2) (64 * w + 64)
      if lo < hi then Nat.lor m ((2 ^ (hi - lo) - 1) * 2 ^ (lo - 64 * w)) else m
    else m) 0

/-- R189, R203: the scheduled writes that land in a cycle read each ECC word they cover only in part, and each P-store granule
they are the first of the leg to write, once. -/
def State.mergeReads (s : State) (c t : Nat) : State :=
  if (s.clu c).ecc.isEmpty then s
  else
    let puts := ((s.clu c).pend.filter (fun e => decide (e.due ≤ t))).filterMap (fun e => match e.eff with
      | .put st pos n _ => some (st, pos, n)
      | .capture _ st addr => some (st, 8 * addr, 64)
      | _ => none)
    let words := nub (puts.flatMap (fun x =>
      (List.range ((x.2.1 + x.2.2 - 1) / 64 + 1 - x.2.1 / 64)).map (fun i => (x.1, x.2.1 / 64 + i))))
    let part := words.filter (fun w => coverOf puts w.1 w.2 != 2 ^ 64 - 1)
    let grans := if s.bit F.CLU_STSTAT.SHA [c] then
        (nub ((words.filter (fun w => w.1 == 2)).map (·.2 / 8))).filter (fun g => !(s.clu c).dirty.contains g)
      else []
    let s := grans.foldl (fun a g => (a.eccRead c 2 (64 * g) (64 * g + 64)).1) s
    (part.filter (fun w => !(w.1 == 2 && grans.contains (w.2 / 8)))).foldl (fun a w =>
      (a.eccRead c w.1 (8 * w.2) (8 * w.2 + 8)).1) s

/-- Every cluster's stroke of the present cycle has been carried out: its fields are done, or its pilot has ended. -/
def State.cycleDone (s : State) (c t : Nat) : Bool :=
  match s.entAt c t with
  | some e => if e.cyc = t then e.todo == 0 else true
  | none => (s.clu c).dec.ended && (s.clu c).look.isEmpty

/-- R181, R182: decode faults whose cycle has come: every pilot that found one records it; the lowest cluster gives the
voyage's end. -/
def State.strokeStop (s : State) (q : Part) (t : Nat) : State × Option VEnd :=
  q.cls.foldl (fun (a : State × Option VEnd) c =>
    match (a.1.clu c).dec.fault with
    | some f =>
      if f.cyc ≤ t then
        let st := a.1.setWord .CLU_PFAULT [c] (f.code * 2 ^ 56 + f.field * 2 ^ 54 + f.addr * 2 ^ 32 + f.cyc % 2 ^ 32)
        (st, match a.2 with | some e => some e | none => some ⟨0x10, c, f.code, f.field, f.addr, f.cyc⟩)
      else a
    | none => a) (s, none)

/-- A LEG or TIDE fault of the present cycle in the pilots of a list (R166, R168, R181, R182). -/
def State.legTideFault (s : State) (p t code : Nat) (bad : List Nat) : State :=
  let s := bad.foldl (fun a c =>
    let pc := match a.entAt c t with | some e => e.addr | none => a.fld F.CLU_PSTAT.PC [c]
    a.setWord .CLU_PFAULT [c] (code * 2 ^ 56 + pc * 2 ^ 32 + t % 2 ^ 32)) s
  match bad with
  | c :: _ =>
    let pc := bits (s.word .CLU_PFAULT [c]) 32 10
    s.stopBefore p (t + 12) ⟨0x10, c, code, 0, pc, t⟩
  | [] => s

/-- A leg of partition `p` begins at cycle `t`: it is recorded (R364), and the descriptors of stage LEG are to be fetched
(R292). -/
def State.newLeg (s : State) (p t : Nat) : State :=
  let held := match (s.part p).cls with
    | c :: _ => s.fld F.CHN_HOLDC_0.MISS [c] + s.fld F.CHN_HOLDC_1.DRY [c]
    | [] => 0
  s.modFront p (fun f => { f with
    legs := ((t, 0, held) :: f.legs).take 17
    fetch := f.fetch ++ (f.descs.filter (fun d => leAt d 0 1 == 3)).map (fun d => (3, leAt d 1 1, leAt d 8 8)) })

/-- The LEG strokes of cycle `t` issue; a replay that issues the same LEG again begins no leg anew. -/
def State.legIssued (s : State) (p t : Nat) : State :=
  match (s.front p).legs with
  | (u, _, _) :: _ => if u = t then s else s.newLeg p t
  | [] => s.newLeg p t

/-- The LEG and TIDE strokes of a cycle agree over the partition (R166, R168). -/
def State.checkLegTide (s : State) (p t : Nat) : State :=
  let q := s.part p
  -- a replay issues the LEG stroke of its leg again: no new leg
  let fresh : Bool := match (s.front p).legs with | x :: _ => x.1 != t | [] => true
  let legs := q.cls.filter (fun c => (s.clu c).legNow.isSome)
  let same : Bool := match legs with
    | c :: r => r.all (fun d => (s.clu d).legNow == (s.clu c).legNow)
    | [] => true
  let s :=
    if t = 0 ∧ legs.length ≠ q.cls.length then s.legTideFault p t 0x10 (q.cls.filter (fun c => !legs.contains c))
    else if !legs.isEmpty && (!same || legs.length != q.cls.length) then s.legTideFault p t 0x10 legs
    else if legs.isEmpty then s else s.legIssued p t
  -- a new leg and an END commit the schedule increments (R256, R257)
  let s := if legs.isEmpty then s
    else (s.tallyRange p).foldl (fun a ty => if a.word .TDE_TLEG [ty] = 0 then a else a.setWord .TDE_TLEG [ty] 0) s
  let ended := q.cls.any (fun c => match s.entAt c t with
    | some e => strokeKind e.word == 1 && strokeCop e.word == 0x3F
    | none => false)
  let s := if ended then (s.tallyRange p).foldl (fun a ty =>
      if a.fld F.TDE_TLEG.UINC [ty] = 0 then a else a.setFld F.TDE_TLEG.UINC [ty] 0) s else s
  let s := if legs.isEmpty || !fresh then s
    else (s.setFld F.FLT_PREC.NREP [p] 0).modPart p (fun q => { q with badPorts := [], newBad := [] })
  let tides := q.cls.filter (fun c => (s.clu c).tideNow)
  let s :=
    if tides.isEmpty then s
    else if tides.length ≠ q.cls.length then
      let s := s.legTideFault p t 0x12 tides
      forClusters tides (fun c a => (a.setFld F.CLU_PSTAT.STATE [c] 2).modClu c (fun k => { k with tideList := none })) s
    else s.modPart p (fun q => { q with tideAt := some t })
  forClusters q.cls (fun c a => a.modClu c (fun k => { k with legNow := none, tideNow := false })) s

/-- R178: the guarded units that the strokes of the present cycle begin leave their tallies as the strokes issue. -/
def State.guardDecrements (s : State) (c t : Nat) : State :=
  match s.entAt c t with
  | some e =>
    if e.cyc = t then
      e.guards.foldl (fun a g =>
        let a := a.changeTally g.tally ⟨0, 1, 0, 0⟩
        if g.ok then a.setFld F.TDE_TAL.PEND [g.tally] (a.fld F.TDE_TAL.PEND [g.tally] - 1) else a) s
    else s
  | none => s

/-- The stroke whose last cycle is `t` retires: program counter, loops and walk positions (R148, R150, R173). -/
def State.retire (s : State) (c t : Nat) : State :=
  let s := if s.pilot c = 3 then s.setFld F.CLU_PSTAT.STATE [c] 2 else s
  match s.entAt c t with
  | some e =>
    if e.endc = t then
      let s := s.setFld F.CLU_PSTAT.PC [c] (e.npc % 1024)
      let s := s.setLoops c e.nloops
      let s := e.npos.foldl (fun a w => a.setWord .CLU_WPOS [c, w.1] w.2) s
      s.modClu c (fun k => { k with look := k.look.filter (fun x => x.cyc != e.cyc) })
    else s
  | none => s

/-- R201, R226: after every pilot's END, locks clear and words in the links are discarded. -/
def State.afterEnd (s : State) (p : Nat) : State :=
  let q := s.part p
  if q.cls.all (fun c => s.pilot c == 5) then
    let s := s.modPart p (fun q => { q with ended := some (q.ended.getD q.scyc) })
    forClusters q.cls (fun c a => (a.setLocks c []).dropLinks c) s
  else s

/-- A ccy of partition `p` that is not held (R218, R223): the present schedule cycle closes. Nothing happens while a stroke
of the cycle is not carried out. A stop that is due falls first (R181, R231, R443). (log 49, DEDUCED) -/
def State.runCcy (s : State) (p : Nat) (fs : List Flip) : State :=
  let s := (s.examine p).decideHold p
  let q := s.part p
  if q.recDue then s.recover p
  else
    let t := q.scyc
    let run : Bool := match q.hold with | h :: _ => h.causes == 0 && h.exam | [] => false
    let st := s.strokeStop q t
    let stop : Option VEnd := match st.2, q.stopAt with
      | some e, some (u, f) => if u < t then some f else some e
      | some e, none => some e
      | none, some (u, f) => if u ≤ t then some f else none
      | none, none => none
    match stop with
    | some e => if run then st.1.stopVoyage p e else s
    | none =>
      if run && q.cls.all (fun c => s.cycleDone c t) then
        let s := s.applyFlips p fs
        let s := s.checkLegTide p t
        let ended := q.cls.all (fun c => (s.clu c).look.isEmpty && s.pilot c == 5)
        let r := if ended then Routed.mk s [] [] else q.cls.foldl (fun a c => State.route a p c t fs) ⟨s, [], []⟩
        let s := r.words.foldl (fun a w => a.modClu w.1 (fun k => { k with links := k.links ++ [w.2] })) r.s
        let s := r.caught.foldl (fun a w => a.catchWord p w) (s.framesOut p t)
        let s := forClusters q.cls (fun c a => ((a.mergeReads c t).landDue c t).guardDecrements c t) s
        let s := s.settleTallies p
        let s := forClusters q.cls (fun c a => (a.retire c t).modClu c (fun k =>
          ({ k with fbanks := [], dec := { k.dec with books := k.dec.books.filter (fun b => decide (t < b.cyc)) } } :
            Cluster).padReady (q.pccy + 1))) s
        let s := s.modPart p (fun q => { q.shift with scyc := q.scyc + 1 })
        ((s.afterEnd p).newCcy p).takeWaits
      else s

/-! ### Landing buffers (R233, R234, R237) -/

/-- A ferry write reaches a landing buffer: `true` where it is taken or dropped, false where it waits on the ring. -/
def State.lbufWrite (s : State) (w : LbufWrite) : State × Bool :=
  let c := w.cluster
  let g := w.gate.val
  let p := s.partOf c
  if !s.inPart c || w.part != p || w.gen.toNat != s.fld F.CLU_STSTAT.CGEN [c] || s.fld F.CHN_GWCFG.MODE [c, g] != 1 then
    (s.incFld F.CHN_CERR.BSTALE [c] 1, true)
  else
    let wp := s.fld F.CHN_GWPTR.WPTR [c, g]
    if 512 ≤ (wp + 1024 - s.fld F.CHN_GWPTR.CPTR [c, g]) % 1024 then (s, false)
    else
      let s := s.modClu c (fun k =>
        { k with lbuf := SMap.set (List.replicate 64 0) k.lbuf (g * 512 + wp % 512) (slice w.data 0 64) })
      let s := s.setFld F.CHN_GWPTR.WPTR [c, g] ((wp + 1) % 1024)
      (s.elasticTally (s.fld F.CHN_GWCFG.FTALLY [c, g]) 1 p w.gen.toNat none, true)

/-- LANDING_BUFFER_WRITE. -/
def execLandingBufferWrite (w : LbufWrite) (s : State) : Res := onCore s fun s =>
  if s.enabled w.cluster then (s.lbufWrite w).1 else s

end Sys2Proof.Machine
end

