-- ==== Sys2Proof/Machine/Link.lean ====
section
/-! DEFINITION. Torec messages that arrive and are forwarded (R379, R380), the capability block (R387, R388), capacity and
bandwidth of the landings (R376, R390, R401, R402). -/

namespace Sys2Proof.Machine

/-- R379: a message is dropped: counted, and an event the first time in a tide period. -/
def State.dropMsg (s : State) (l : Nat) (h : Header) : State :=
  ((s.incFld F.LND_CNT.DROP [l] 1).took l h).postOnce (0x060B * 2 ^ 16 + l) 0x060B 0x08 partNone (4 * l) l (h.cls.toNat * 16 + h.opc.toNat)

/-- TORECRESERVEDMESSAGE (R379): a reserved class or opcode, a payload above the agreed limit, or a class not agreed. -/
def State.badMessage (s : State) (l : Nat) (h : Header) : Bool :=
  let c := h.cls.toNat
  let o := h.opc.toNat
  let legal := match c with
    | 0 => [0, 1, 2, 8, 9, 14, 15].contains o
    | 1 => [0, 1, 2, 3, 8, 9, 10, 14].contains o
    | 2 => [0, 1, 2, 3, 4, 8, 9, 10, 11, 12, 14].contains o || decide (o < 8)
    | 3 => [0, 14].contains o
    | 4 => [0, 1, 2, 3, 4, 5, 6, 9, 14].contains o
    | 5 => [0, 1, 14].contains o
    | _ => false
  !legal || decide ((s.lnd l).maxpl < h.len.toNat) || !bitAt (s.fld F.LND_STAT.CLS [l]) c

/-- TOREC_RESERVED_MESSAGE. -/
def execTorecReservedMessage (l : Fin 8) (h : Header) (s : State) : Res := onCore s fun s =>
  if s.torec l.val && s.badMessage l.val h then s.dropMsg l.val h else s

/-- The number a broadcast is known by: its tide or term (R380, R386); a DIGEST, which names neither, by the period. (log 36, DESIGN CHOICE) -/
def State.castKey (s : State) (h : Header) (data : Bytes) : Nat :=
  match h.opc.toNat with
  | 4 => leAt data 0 4
  | 5 => s.period
  | _ => leAt data 0 8

/-- TOREC_FORWARD (R380): a message for another die goes on by route; a broadcast goes on to every other compute die, once. (log 36, DESIGN CHOICE) -/
def execTorecForward (l : Fin 8) (h : Header) (data : Bytes) (s : State) : Res := onCore s fun s =>
  let c := h.cls.toNat
  if !s.torec l.val then s
  else if s.badMessage l.val h then s.dropMsg l.val h
  else if c ≤ 1 then s
  else if c = 4 ∧ h.dst.toNat = 0x3F then
    let s := s.took l.val h
    let k := (h.opc.toNat, h.src.toNat, s.castKey h data)
    if s.tide.seen.contains k || h.src.toNat == s.pos then s
    else ({ s with tide := { s.tide with seen := k :: s.tide.seen } }).broadcast h data (some l.val)
  else if h.dst.toNat = s.pos then s
  else
    match s.routeOf h.dst.toNat with
    | some k => (s.took l.val h).sendOn k h data
    | none => s.dropMsg l.val h

/-! ### Capacity and bandwidth -/

/-- Deliverable bandwidth of one landing in MB/s (R402). -/
def State.landBw (s : State) (l : Nat) : Nat :=
  let cap := s.fld F.LND_STAT.CAPH [l] * 4000 * rateOf (s.fld F.LND_STAT.RATE [l])
  if s.cxlUp l then cap
  else if s.torec l && s.prole l == 1 then min cap (bits (s.word .LND_CAPP [l, 3]) 0 32)
  else 0

/-- DBW of R402: over the landings that a valid physical range names. -/
def State.dbwOf (s : State) : Nat :=
  (lands8.filter (fun l => (List.range 16).any (fun k =>
    s.bit F.CHT_PMAP.VAL [k] && s.fld F.CHT_PMAP.LAND [k] == l))).foldl (fun a l => a + s.landBw l) 0

/-- DBW is found anew; a change posts event 0x060A (R402). -/
def State.newDbw (s : State) : State :=
  let d := s.dbwOf
  if d = s.dbw then s
  else ({ s with dbw := d, tide := { s.tide with dbwNew := true } }).post 0x060A 0x08 partNone locNone d s.gbw

/-- R401: the landing is overdrawn or not; an overdraw that begins posts event 0x0301. -/
def State.overdraw (s : State) (l : Nat) : State :=
  let ps := s.boundParts l
  let short : Bool := s.lstate l == 3 && !ps.isEmpty && (decide (s.capHalf l < 6) || decide (s.slotsOf l < s.slotsBound l))
  let was := s.bit F.LND_STAT.OVRD [l]
  let s := s.setFld F.LND_STAT.OVRD [l] (b2n short)
  if short && !was then s.post 0x0301 0x08 partNone (4 * l) l (ps.foldl (fun a p => Nat.lor a (2 ^ p)) 0) else s

/-- The fields of LND_STAT that follow the modules (R404), the overdraw and the bandwidth. -/
def State.moduleSet (s : State) (l : Nat) : State :=
  let st := fun (m : Nat) => s.fld F.LND_MOD.MST [l, m]
  let mask := fun (p : Nat → Bool) => (List.range 4).foldl (fun a m => if p m then a + 2 ^ m else a) 0
  let s := s.setFlds [l] [
    (F.LND_STAT.ACT, mask (fun m => [2, 3, 4].contains (st m))), (F.LND_STAT.HALF, mask (fun m => [3, 4].contains (st m))),
    (F.LND_STAT.RET, mask (fun m => st m == 5)), (F.LND_STAT.CAPH, s.capHalf l),
    (F.LND_STAT.SLOTS, if s.lstate l = 3 then s.slotsOf l else 0)]
  (s.overdraw l).newDbw

/-- A change command of LND_RTCMD ends with a result (R404). -/
def State.rtEnd (s : State) (l res : Nat) : State :=
  s.setFlds [l] [(F.LND_RTCMD.BUSY, 0), (F.LND_RTCMD.OP, 0), (F.LND_RTCMD.RES, res)]

/-- The counts of holds and join notices received for a control entry begin anew with its partition (R393). -/
def State.clearCtl (s : State) (l k : Nat) : State :=
  s.modLand l (fun x => { x with holdRx := x.holdRx.filter (fun e => e.1 / 8 % 8 != k) })

/-- The die runs on the package reference (REFH of R387): its PLLs are locked to the candidate that CLOCK has selected
(R451), during CLOCK and after it. (log 25, DEDUCED) -/
def State.refh (s : State) : Bool :=
  s.bit F.CLK_REF.LOCK [] && (bitAt s.bring.doneMask 8 || (s.bring.step == 8 && s.bring.status == 1))

/-- The die's own capability block (R387). -/
def State.ownCap (s : State) (l : Nat) : Bytes :=
  let feat := 2 + 4 + 8 + (if s.refh then 16 else 0) + (if s.bit F.LND_CTL.FLREQ [l] then 32 else 0)
  let body := leBytes 4 (0x10 + 0x10 * 2 ^ 8 + 0x3F * 2 ^ 16 + feat * 2 ^ 24) ++
    leBytes 2 s.pos ++ leBytes 2 0x0D47 ++ leBytes 2 s.fuses.grade.toNat ++ leBytes 2 0 ++
    List.replicate 6 0x40 ++ leBytes 2 0 ++ leBytes 4 (s.fld F.CLK_CCLK.CUR []) ++ leBytes 4 0
  body ++ leBytes 4 (crc32 body)

end Sys2Proof.Machine
end

