-- ==== Sys2Proof/Machine/Chart.lean ====
section
/-! DEFINITION. The chart unit: which landing serves a physical address (R334), the walks of virtual addresses (R332) and of
stream pages (R335, R336), the entry cache (R333) and the fault codes (R337). -/

namespace Sys2Proof.Machine

/-! ### Physical accesses -/

/-- R334: the range of CHT_PMAP that holds a physical address: the first that matches. -/
def State.pmapOf (s : State) (pa : Nat) : Option Nat :=
  (List.range 16).find? (fun k =>
    s.bit F.CHT_PMAP.VAL [k] && decide (s.fld F.CHT_PMAP.BASE [k] ≤ pa / 2 ^ 30) &&
      decide (pa / 2 ^ 30 ≤ s.fld F.CHT_PMAP.LIMIT [k]))

/-- R334: the landing and protocol of a physical address. -/
def State.target (s : State) (pa : Nat) : Option (Nat × Nat) :=
  (s.pmapOf pa).map (fun k => (s.fld F.CHT_PMAP.LAND [k], s.fld F.CHT_PMAP.PROTO [k]))

/-- The parts of an access, split where it passes from one range to another (R334): address and length. -/
def State.paParts (s : State) (pa len : Nat) : List (Nat × Nat) :=
  let room := 2 ^ 30 - pa % 2 ^ 30
  if len ≤ room ∨ s.pmapOf pa = s.pmapOf (pa + room) then [(pa, len)] else [(pa, room), (pa + room, len - room)]

/-- Every byte of an access has a target. -/
def State.mapped (s : State) (pa len : Nat) : Bool := (s.paParts pa len).all (fun p => (s.target p.1).isSome)

/-- R383: a write names whole 16-byte units; the bytes of a unit around those written are free values. (log 64, DESIGN CHOICE) -/
def State.wholeUnits (s : State) (pa : Nat) (data : Bytes) : State × Bytes :=
  let w := pa % 16
  let n := 16 * units16 (w + data.length)
  if n = data.length then (s, data)
  else
    let x := s.takeFree
    (x.1, (List.range n).map (fun i =>
      if w ≤ i ∧ i < w + data.length then listGet 0 data (i - w) else Config.unitByte x.2 i))

/-- One part of an access leaves on its landing; false where no such landing carries traffic (R401). -/
def State.sendPart (s : State) (wr : Bool) (pa len : Nat) (data : Bytes) (tag part gen key : Nat) : State × Bool :=
  match s.target pa with
  | none => (s, false)
  | some (l, proto) =>
    if proto = 0 then
      if s.torec l && bitAt (s.fld F.LND_STAT.CLS [l]) 0 then
        let h := { s.hdr 0 (if wr then 1 else 0) (s.fld F.LND_STAT.PPOS [l]) part gen (units16 (pa % 16 + len)) tag
          (pa - pa % 16) with key := BitVec.ofNat 16 key }
        let x := if wr then s.wholeUnits pa data else (s, [])
        ((x.1.sendOn l h x.2).modLand l (fun k => { k with sent := k.sent ++ [tag] }), true)
      else (s, false)
    else if s.cxlUp l then
      ((s.emit (.cxl l wr pa len (if wr then data else []) tag)).modLand l (fun k => { k with sent := k.sent ++ [tag] }), true)
    else (s, false)

/-- A request under this tag has no answer yet. -/
def State.tagBusy (s : State) (tag : Nat) : Bool := lands8.any (fun l => (s.lnd l).sent.contains tag)

/-- The first tag, from `t`, that is free together with the one after it. -/
def State.freeTag (s : State) : Nat → Nat → Nat
  | 0, t => t % 4096
  | fuel + 1, t =>
    if s.tagBusy (t % 4096) || s.tagBusy ((t + 1) % 4096) then State.freeTag s fuel (t + 1) else t % 4096

/-- `n` tags have been taken; the next request takes one for whose answer there is room (R382). -/
def State.bumpTag (s : State) (n : Nat) : State := { s with nextTag := s.freeTag 4096 (s.nextTag + n) }

/-- The request under a tag has its answer. -/
def State.answered (s : State) (l tag : Nat) : State := s.modLand l (fun k => { k with sent := k.sent.filter (· != tag) })

/-- A memory access: its parts leave in order; false where one cannot. -/
def State.memAccess (s : State) (wr : Bool) (pa len : Nat) (data : Bytes) (tag part gen key : Nat) : State × Bool :=
  (s.paParts pa len).foldl (fun a p =>
    if a.2 then a.1.sendPart wr p.1 p.2 (slice data (p.1 - pa) p.2) tag part gen key else a) (s, true)

/-- R334: a physical access of the front end; one with no target posts event 0x0506. (log 59, DEDUCED) -/
def State.frontAccess (s : State) (wr : Bool) (pa len : Nat) (data : Bytes) : State × Bool :=
  if s.mapped pa len then
    let r := s.memAccess wr pa len data s.nextTag 0 0 0
    (r.1.bumpTag 1, r.2)
  else (s.post 0x0506 0x06 partNone locNone pa 0, false)

/-- Write bytes of package memory in accesses that do not cross a 64-byte line: whether each has left, and their tags. -/
def State.writeLines (s : State) (pa : Nat) (data : Bytes) : Nat → State × Bool × List Nat
  | 0 => (s, true, [])
  | fuel + 1 =>
    if data.isEmpty then (s, true, [])
    else
      let n := min data.length (64 - pa % 64)
      let r := s.frontAccess true pa n (data.take n)
      if r.2 then
        let x := State.writeLines r.1 (pa + n) (data.drop n) fuel
        (x.1, x.2.1, s.nextTag :: x.2.2)
      else (r.1, false, [])

/-! ### Translation -/

/-- What a translation answers: the physical address, an entry still to be read, or a chart fault (R337). -/
inductive XOut where
  | ok (pa : Nat)
  | miss
  | fault (code level addr entry : Nat)
  deriving DecidableEq, Repr

/-- A translation under way: entries read from memory and not yet used, and the valid ones met, with where they stand. -/
structure XSt where
  left : List Fetched64
  got : List CEnt
  out : XOut
  deriving DecidableEq, Repr

/-- Read one entry: from the cache, or the next that the walk brought. -/
def State.readEntry (s : State) (x : XSt) (part level pa va : Nat) (fault : Nat) : XSt × Option Nat :=
  if !s.mapped pa 8 then ({ x with out := .fault 6 level pa 0 }, none)
  else
    match s.cache.find? (fun e => e.part == part && e.level == level && e.pa == pa) with
    | some e => (x, some e.entry)
    | none =>
      match x.left with
      | [] => ({ x with out := .miss }, none)
      | .memErr :: _ => ({ x with out := .fault 7 level fault 0 }, none)
      | .entry w :: r =>
        let e := w.toNat
        if e % 2 = 0 then ({ x with left := r, out := .fault 3 level fault e }, none)
        else ({ x with left := r, got := x.got ++ [⟨part, level, pa, va, e⟩] }, some e)

/-- The shift of the index and the bits of the index, by level (R332). -/
def vaLevel (k : Nat) : Nat × Nat :=
  match k with | 0 => (39, 9) | 1 => (30, 9) | 2 => (21, 9) | _ => (16, 5)

/-- R332: the walk from level `k`, with `fuel` levels to go. -/
def State.walkVa (s : State) (part va : Nat) (wr : Bool) : Nat → Nat → Nat → XSt → XSt
  | 0, _, _, x => x
  | fuel + 1, k, table, x =>
    let sh := (vaLevel k).1
    let r := s.readEntry x part k (table + 8 * bits va sh (vaLevel k).2) (va / 2 ^ 16) va
    match r.2 with
    | none => r.1
    | some e =>
      let x := r.1
      let leaf := bitAt e 1
      let adr := bits e 8 44 * 256
      let perm := bits e 2 2
      let bad := bits e 52 12 != 0 || bits e 4 4 != 0 || (leaf && k == 0) || (!leaf && k == 3) || (!leaf && perm != 0) ||
        (if leaf then adr % 2 ^ sh != 0 else if k = 2 then false else adr % 4096 != 0)
      if bad then { x with out := .fault 5 k va e }
      else if leaf then
        if (wr && !bitAt e 3) || (!wr && !bitAt e 2) then { x with out := .fault 4 k va e }
        else
          let pa := adr + va % 2 ^ sh
          { x with out := if s.mapped pa 1 then .ok pa else .fault 6 7 pa e }
      else State.walkVa s part va wr fuel (k + 1) adr x

/-- The translation of a package virtual address. -/
def State.xlateVa (s : State) (part : Nat) (va : Nat) (wr : Bool) (left : List Fetched64) : XSt :=
  let x : XSt := ⟨left, [], .miss⟩
  if 2 ^ 48 ≤ va then { x with out := .fault 2 0 va 0 }
  else if !s.bit F.CHT_ROOT.VAL [part] then { x with out := .fault 1 0 va 0 }
  else s.walkVa part va wr 4 0 (s.fld F.CHT_ROOT.BASE [part] * 4096) x

/-- LIMIT and ROOT of a stream entry (R309). -/
def streamLimit (e : Bytes) : Nat := leAt e 4 4
def streamRoot (e : Bytes) : Nat := leAt e 16 8

/-- log2 of RECSZ (R335). -/
def recBits (root : Nat) : Nat := bits root 4 4 + 6

/-- The translation of a linear byte of a stream slot (R335, R336). -/
def State.xlateStream (s : State) (part slot : Nat) (b : Int) (wr : Bool) (left : List Fetched64) : XSt :=
  let x : XSt := ⟨left, [], .miss⟩
  match (s.front part).streams[slot]? with
  | none => { x with out := .fault 2 4 b.toNat 0 }
  | some st =>
    let root := streamRoot st.ent
    let lb := b.toNat % 2 ^ 64
    if root % 2 = 0 then { x with out := .fault 1 4 lb root }
    else if bits root 52 12 ≠ 0 ∨ bits root 8 4 ≠ 0 ∨ bits root 1 3 ≠ 0 ∨ 10 < bits root 4 4 then
      { x with out := .fault 5 4 lb root }
    else
      let n := b.toNat / 2 ^ recBits root
      if b < 0 ∨ streamLimit st.ent ≤ n then { x with out := .fault 2 4 lb root }
      else
        let r := s.readEntry x part 5 (bits root 12 40 * 4096 + 8 * bits n 13 9) n lb
        match r.2 with
        | none => r.1
        | some e =>
          if bits e 52 12 ≠ 0 ∨ bits e 1 11 ≠ 0 then { r.1 with out := .fault 5 5 lb e }
          else
            let r2 := s.readEntry r.1 part 6 (bits e 12 40 * 4096 + 8 * bits n 4 9) n lb
            match r2.2 with
            | none => r2.1
            | some f =>
              let adr := bits f 10 42 * 1024
              let x := r2.1
              if bits f 52 12 ≠ 0 ∨ bits f 4 6 ≠ 0 ∨ bitAt f 1 ∨ adr % 2 ^ (recBits root + 4) ≠ 0 then
                { x with out := .fault 5 6 lb f }
              else if (wr && !bitAt f 3) || (!wr && !bitAt f 2) then { x with out := .fault 4 6 lb f }
              else
                let pa := adr + b.toNat % 2 ^ (recBits root + 4)
                { x with out := if s.mapped pa 1 then .ok pa else .fault 6 7 pa f }

/-- The translation of a point. -/
def State.xlate (s : State) (part : Nat) (pt : Point) (wr : Bool) (left : List Fetched64) : XSt :=
  if pt.stream then s.xlateStream part pt.slot pt.addr wr left else s.xlateVa part pt.addr.toNat wr left

/-- R333: valid entries enter the cache, which holds 8,192; the oldest leave. -/
def State.cachePut (s : State) (l : List CEnt) : State :=
  let c := (l ++ s.cache).take 8192
  ({ s with cache := c }).setFld F.CHT_STAT.OCC [] c.length

/-- Count a chart fault (R346). -/
def State.countFault (s : State) (code : Nat) : State :=
  if code = 3 then s.incFld F.CHT_FCNT.NOTPRES [] 1
  else if code = 4 then s.incFld F.CHT_FCNT.PERM [] 1 else s.incFld F.CHT_FCNT.OTHER [] 1

/-- R337: a virtual fetch of the front end, of `len` bytes: what its translation meets of itself (no root, an address out of
range, a faulting cached entry, no target) ends it, whatever memory answers. -/
def State.feFetch (s : State) (p va len : Nat) (x : Fetched) : Fetched :=
  let fault : Option (Nat × Nat × Nat × Nat) :=
    match (s.xlateVa p va false []).out with
    | .fault c l a e => some (c, l, a, e)
    | _ => if 2 ^ 48 < va + len then some (2, 0, 2 ^ 48, 0) else none
  match fault with
  | some (c, l, a, e) => .chartFault (BitVec.ofNat 8 c) (BitVec.ofNat 8 l) (BitVec.ofNat 64 a) (BitVec.ofNat 64 e)
  | none => x

/-! ### Invalidation (R333) -/

/-- Drop the cached entries that `drop` accepts; walks begun before are marked, and BUSY holds until they end. -/
def State.invalidate (s : State) (drop : CEnt → Bool) : State :=
  let c := s.cache.filter (fun e => !drop e)
  let ws := s.walks.map (fun (w : CWalk) => { w with stale := true })
  let s : State := { s with cache := c, walks := ws }
  (s.setFld F.CHT_STAT.OCC [] c.length).setFld F.CHT_INV.BUSY [] 1

/-- The right to an invalidation of partition `p` (R347), and BUSY. -/
def State.invStart (s : State) (q : Requester) (p op va : Nat) (drop : CEnt → Bool) : State :=
  if !isFw q && !(s.rightsOf q).ofPart p then s.deny q (regAddr .CHT_INV [])
  else if s.bit F.CHT_INV.BUSY [] then s.status stBusy
  else
    ((s.setFlds [] [(F.CHT_INV.OP, op), (F.CHT_INV.PART, p), (F.CHT_INV.VA, va)]).invalidate drop).status stOk

/-- The command of CHT_INV with this OP: entries of every level of the partition, of the range, or of stream pages. -/
def State.invCmd (s : State) (q : Requester) (op p va : Nat) : State :=
  let lo := va * 2 ^ 16
  let hi := lo + max 1 (s.fld F.CHT_INVLEN.NPG []) * 2 ^ 16
  -- an entry of a level serves the whole range its index selects
  let span := fun (e : CEnt) => 2 ^ (vaLevel e.level).1
  let hits := fun (e : CEnt) =>
    let b := e.va * 2 ^ 16 / span e * span e
    decide (b < hi) && decide (lo < b + span e)
  match op with
  | 1 => s.invStart q p 1 va (fun e => e.part == p)
  | 2 => s.invStart q p 2 va (fun e => e.part == p && decide (e.level ≤ 3) && hits e)
  | 3 => s.invStart q p 3 va (fun e => e.part == p && decide (4 ≤ e.level))
  | _ => s.status stOk

/-- INV_PARTITION. -/
def execInvPartition (q : Requester) (p : Fin 16) (s : State) : Res := onCore s (fun s => s.invCmd q 1 p.val 0)

/-- INV_RANGE; the length is that of CHT_INVLEN. -/
def execInvRange (q : Requester) (p : Fin 16) (va : BitVec 32) (s : State) : Res := onCore s (fun s => s.invCmd q 2 p.val va.toNat)

/-- INV_STREAM_PAGES. -/
def execInvStreamPages (q : Requester) (p : Fin 16) (s : State) : Res := onCore s (fun s => s.invCmd q 3 p.val 0)

/-- INVALIDATION_COMPLETE (R333): once every walk begun before has ended, BUSY clears and OP reads 0. -/
def execInvalidationComplete (s : State) : Res := onCore s fun s =>
  if s.bit F.CHT_INV.BUSY [] && s.walks.all (fun w => !w.stale) then
    -- a piece that issues from now on uses entries read after the invalidation
    let s : State := { s with engs := s.engs.foldl (fun m x => SMap.set Eng.empty m x.1 { x.2 with xl := [] }) s.engs }
    s.setFlds [] [(F.CHT_INV.BUSY, 0), (F.CHT_INV.OP, 0)]
  else s

end Sys2Proof.Machine
end

