-- ==== Sys2Proof/Machine/Ferry.lean ====
section
/-! DEFINITION. The ferry engines (R316-R331, R338-R344): placement, choice, buckets, pieces, the end of a descriptor,
stealing, parking and resolution, and the drain of an old generation. -/

namespace Sys2Proof.Machine

/-! ### Descriptors -/

def Desc.op (d : Desc) : Nat := leAt d.body 1 1
def Desc.ssp (d : Desc) : Nat := leAt d.body 2 1
def Desc.dsp (d : Desc) : Nat := leAt d.body 3 1
def Desc.key (d : Desc) : Nat := leAt d.body 4 2
def Desc.flags (d : Desc) : Nat := leAt d.body 6 2
def Desc.src (d : Desc) : Nat := leAt d.body 8 8
def Desc.dst (d : Desc) : Nat := leAt d.body 16 8
def Desc.len (d : Desc) : Nat := leAt d.body 24 4
def Desc.wtally (d : Desc) : Nat := leAt d.body 28 2
def Desc.stally (d : Desc) : Nat := leAt d.body 30 2
def Desc.wamt (d : Desc) : Nat := leAt d.body 32 3
def Desc.samt (d : Desc) : Nat := leAt d.body 36 3
def Desc.doneva (d : Desc) : Nat := leAt d.body 40 8

/-- R321: the size of the chunk at the present offset. -/
def Desc.chunkLen (d : Desc) : Nat := min (4096 - d.off % 4096) (d.len - d.off)

/-- R324: what the bucket is still to give for that chunk: nothing for one that a park broke off. -/
def Desc.due (d : Desc) : Nat := if d.off < d.paid then 0 else d.chunkLen

/-- Engine `e`. -/
def State.eng (s : State) (e : Nat) : Eng := SMap.get Eng.empty s.engs e

/-- Set engine `e` and the fields of FRY_ESTAT that show it. -/
def State.setEng (s : State) (e : Nat) (k : Eng) : State :=
  let s := { s with engs := SMap.set Eng.empty s.engs e k }
  let occ := (List.range 8).foldl (fun a i => match listGet none k.park i with | some _ => a + 2 ^ i | none => a) 0
  s.setFlds [e] [(F.FRY_ESTAT.QDEP, k.q.length), (F.FRY_ESTAT.NPARK, popcount 8 occ), (F.FRY_ESTAT.PSLOT, occ),
    (F.FRY_ESTAT.ACT, b2n k.act.isSome), (F.FRY_ESTAT.APART, match k.act with | some d => d.part | none => 0)]

/-- Change engine `e`. -/
def State.modEng (s : State) (e : Nat) (f : Eng → Eng) : State := s.setEng e (f (s.eng e))

/-- The engines. -/
def engines : List Nat := List.range 64

/-- The parked descriptors of an engine. -/
def Eng.parked (k : Eng) : List Desc := k.park.filterMap (fun p => p.map (·.d))

/-- Every descriptor of an engine: queued, active or parked. -/
def Eng.all (k : Eng) : List Desc := k.q ++ k.act.toList ++ k.parked

/-- Change the descriptor `uid` wherever an engine holds it. -/
def Eng.modDesc (k : Eng) (uid : Nat) (f : Desc → Desc) : Eng :=
  let g := fun (d : Desc) => if d.uid == uid then f d else d
  { k with q := k.q.map g, act := k.act.map g, park := k.park.map (fun p => p.map (fun x => { x with d := g x.d })) }

/-- Every descriptor of the die. -/
def State.descs (s : State) : List Desc := s.engs.flatMap (fun e => e.2.all)

/-- An older descriptor of the same partition and non-zero key is queued, active or parked (R322). -/
def State.heldByKey (s : State) (d : Desc) : Bool :=
  d.key != 0 && s.descs.any (fun x => x.part == d.part && x.key == d.key && decide (x.uid < d.uid))

/-- Most that the bucket of partition `p` holds, in 1/1024 byte (R324, R345). -/
def State.bucketCap (s : State) (p : Nat) : Nat := max 4 (s.fld F.FRY_PRATE.BURST [p]) * 1024 * 1024

/-- What a bucket holds, in 1/1024 byte. (log 52, DEDUCED) -/
def State.bucketLevel (s : State) (p : Nat) : Nat := min (s.bucketCap p) (SMap.get 0 s.bucket p)

/-- What partition `p` may take from its bucket, in bytes (R324): nothing while its RATE is 0. -/
def State.bucketBytes (s : State) (p : Nat) : Nat :=
  if s.fld F.FRY_PRATE.RATE [p] = 0 then 0 else s.bucketLevel p / 1024

/-- `n` bytes are taken from a bucket. -/
def State.takeBytes (s : State) (p n : Nat) : State :=
  { s with bucket := SMap.set 0 s.bucket p (s.bucketLevel p - n * 1024) }

/-- R322: a descriptor is ready. -/
def State.ready (s : State) (d : Desc) : Bool :=
  (d.begun || !bitAt d.flags 0 || decide (d.wamt ≤ s.tallyCommitted d.wtally)) && !s.heldByKey d &&
    decide (d.due ≤ s.bucketBytes d.part)

/-- BUCKET_REFILL (R324). -/
def execBucketRefill (s : State) : Res := onCore s fun s =>
  (List.range 16).foldl (fun a p =>
    let rate := a.fld F.FRY_PRATE.RATE [p]
    let gain := rate * min 65536 (a.fld F.FRY_SCALE.SCALE [])
    if rate = 0 then a
    else { a with bucket := SMap.set 0 a.bucket p (min (a.bucketCap p) (SMap.get 0 a.bucket p + gain)) }) s

/-! ### Failure of a descriptor (R329, R330) -/

/-- R295: the partition records no IMGID for a handle. (log 83, DEDUCED) -/
def State.forgetImage (s : State) (p h : Nat) : State :=
  s.modFront p (fun f => { f with imgid := SMap.set 0 f.imgid h 0 })

/-- A descriptor that ended with a status other than OK: counted, posted, and told to its voyage. -/
def State.descFailed (s : State) (d : Desc) (eng st code : Nat) : State :=
  let s := s.incFld F.FRY_CNT.FAIL [] 1
  let s := s.post 0x0502 0x04 d.part eng (st * 256 + code) d.dva
  if d.stage ≤ 1 then
    let cl := s.fld F.FE_PSTAT.STATE [d.part]
    if cl = 4 ∨ cl = 3 then
      let s := match d.load with | some (_, h) => s.forgetImage d.part h | none => s
      (s.modFront d.part (fun f => { f with fail := some ⟨0x0B, 0xFFFFFFFF, 0, 0, 0, 0⟩ })).toClose d.part
    else s
  else if (s.part d.part).live then s.stopVoyage d.part ⟨0x0B, 0xFFFFFFFF, 0, 0, 0, 0⟩
  else s

/-- Mark the failure of descriptor `uid` of engine `e`: the first one found gives STATUS and CODE, the lowest offset BYTES
(R328). -/
def State.failDesc (s : State) (e uid st code off : Nat) : State :=
  s.modEng e (fun k => k.modDesc uid (fun d => match d.fail with
    | some (a, b, o) => { d with fail := some (a, b, min o off) }
    | none => { d with fail := some (st, code, off) }))

/-! ### Placement (R317, R319, R320) -/

/-- The cluster a BERTH or LBUF address names is one of the partition's (R319). -/
def State.spaceOk (s : State) (p sp adr : Nat) (dst : Bool) : Bool :=
  let cl := bits adr 32 16
  match sp with
  | 0 => decide (adr % 8 = 0)
  | 1 => decide (adr / 2 ^ 48 = 0) && decide (adr % 8 = 0) && (s.part p).cls.contains cl
  | 2 => !(s.front p).streams.isEmpty
  | 3 => !dst
  | 4 => dst && decide (adr / 2 ^ 48 = 0) && decide (bits adr 9 23 = 0) && decide (bits adr 0 8 = 0) && (s.part p).cls.contains cl &&
      -- an edge router
      ((s.gwPort cl 0).isSome || (s.gwPort cl 1).isSome)
  | _ => false

/-- R320: the format of a descriptor. -/
def State.descOk (s : State) (d : Desc) : Bool :=
  decide (leAt d.body 60 4 = crc32 (slice d.body 0 60)) && decide (leAt d.body 0 1 = 1) && (d.op == 1 || d.op == 2) &&
    (if d.op = 2 then d.ssp == 3 else d.ssp != 3) && decide (d.flags < 8) && decide (d.len % 8 = 0) && decide (8 ≤ d.len) &&
    leAt d.body 35 1 == 0 && leAt d.body 39 1 == 0 && leAt d.body 48 12 == 0 && decide (d.doneva % 16 = 0) &&
    (d.op == 2 || s.spaceOk d.part d.ssp d.src false) && s.spaceOk d.part d.dsp d.dst true &&
    (d.dsp != 4 || d.len % 64 == 0)

/-- The engine a descriptor goes to (R317), where FRY_PMASK names one. -/
def State.placeAt (s : State) (d : Desc) : Option Nat :=
  let mask := s.fld F.FRY_PMASK.MASK [d.part]
  let same := engines.filter (fun e => d.key != 0 && (s.eng e).all.any (fun x => x.part == d.part && x.key == d.key))
  match same with
  | e :: _ => some e
  | [] =>
    if d.eng < 64 ∧ bitAt mask d.eng then some d.eng
    else
      (engines.filter (bitAt mask)).foldl (fun (a : Option Nat) e =>
        match a with
        | none => some e
        | some b => if (s.eng e).q.length < (s.eng b).q.length then some e else a) none

/-- DESCRIPTOR_PLACEMENT (R317): the partition's oldest checked descriptor enters its engine's queue once it has room. -/
def State.placeDesc (s : State) (p : Nat) : State :=
  match (s.front p).place with
  | [] => s
  | d :: r =>
    match s.placeAt d with
    | some e =>
      if (s.eng e).q.length < 64 then
        let d := { d with uid := s.nextUid, home := e }
        let s := { s with nextUid := s.nextUid + 1 }
        (s.modEng e (fun k => { k with q := k.q ++ [d] })).modFront p (fun f => { f with place := r })
      else s
    | none => s

/-- DESCRIPTOR_PLACEMENT. -/
def execDescriptorPlacement (p : Fin 16) (s : State) : Res := onCore s (fun s => s.placeDesc p.val)

/-! ### Parking (R338, R339, R341) -/

/-- The first free park slot. -/
def Eng.freeSlot (k : Eng) : Option Nat := findIdx (fun (p : Option Park) => p.isNone) k.park

/-- The 64 bytes of a fault record, its SEQ left 0 (R339). -/
def State.faultRec (s : State) (eng slot : Nat) (x : Park) (resume : Nat) : Bytes :=
  leBytes 4 0 ++ leBytes 2 (x.code + 256 * x.level) ++ leBytes 2 (eng + 256 * slot) ++ leBytes 2 (x.d.part + 256 * x.acc) ++
    leBytes 2 x.d.gen ++ leBytes 4 resume ++ leBytes 8 x.addr ++ leBytes 8 x.d.dva ++ leBytes 2 x.d.key ++
    leBytes 2 (x.d.home + 256 * x.cause) ++ leBytes 4 (s.period % 2 ^ 32) ++ leBytes 8 x.entry ++ List.replicate 16 0

/-- The translations of a descriptor are forgotten. -/
def Eng.dropXl (k : Eng) (uid : Nat) : Eng := { k with xl := k.xl.filter (fun x => x.1 != uid) }

/-- The active descriptor of engine `e` moves to a free park slot; its record waits to be written. -/
def State.parkActive (s : State) (e : Nat) (code level acc addr entry cause : Nat) : State :=
  let k := s.eng e
  match k.act, k.freeSlot with
  | some d, some i =>
    let x : Park := ⟨d, code, level, acc, addr, entry, cause, false, false⟩
    let s := s.setEng e { k.dropXl d.uid with act := none, chunk := false, pre := false, park := listSet k.park i (some x) }
    let s := s.incFld F.FRY_CNT.PARKS [] 1
    { s with frecs := s.frecs ++ [(e, i, s.faultRec e i x d.off)], gone := s.gone.filter (· != (e, i)) }
  | _, _ => s

/-- Remove the descriptor `uid` from an engine's queue, or as its active one. -/
def Eng.remove (k : Eng) (uid : Nat) : Eng :=
  let act := match k.act with | some d => if d.uid = uid then none else some d | none => none
  { k.dropXl uid with
    q := k.q.filter (fun d => d.uid != uid), act := act, chunk := k.chunk && act.isSome, pre := k.pre && act.isSome
    park := k.park.map (fun p => match p with | some x => if x.d.uid = uid then none else some x | none => none) }

/-- R338: descriptor `d` of engine `e`, wherever it stands, is parked at its status write, with resume offset LEN: in the slot
it holds, or in a free one. -/
def State.parkStatus (s : State) (e : Nat) (d : Desc) (code level addr entry : Nat) : State :=
  let k := s.eng e
  match (match findIdx (fun (p : Option Park) => p.any (fun x => x.d.uid == d.uid)) k.park with
    | some i => some i
    | none => k.freeSlot) with
  | some i =>
    let x : Park := ⟨d, code, level, 1, addr, entry, 0, true, false⟩
    let k := k.remove d.uid
    let s := (s.countFault code).setEng e { k with park := listSet k.park i (some x) }
    let s := s.incFld F.FRY_CNT.PARKS [] 1
    { s with frecs := s.frecs ++ [(e, i, s.faultRec e i x d.len)], gone := s.gone.filter (· != (e, i)) }
  | none => s

/-- R342: the pool entry's address (in units of 8 bytes from BASE) where the front end can resolve the fault itself. -/
def State.poolEntry (s : State) (d : Desc) (slot code level acc : Nat) : Option Nat :=
  let p := d.part
  match (s.front p).streams[slot]? with
  | some st =>
    let cnt := s.fld F.CHT_SPOOL.CNT [p]
    if code = 3 ∧ level = 6 ∧ acc = 1 ∧ 0 < cnt ∧ s.fld F.CHT_SPOOL.LBLK [p] + 10 = recBits (streamRoot st.ent) + 4 then
      some (s.fld F.CHT_SPOOL.BASE [p] * 256 + 8 * (cnt - 1))
    else none
  | none => none

/-! ### Pieces (R321, R331) -/

/-- The point that byte `off` of a descriptor's source or destination names, for a memory space. -/
def State.pointOf (s : State) (d : Desc) (dst : Bool) (off : Nat) : Option Point :=
  let sp := if dst then d.dsp else d.ssp
  let a := if dst then d.dst else d.src
  if sp = 0 then some (Point.mk false 0 ((a + off : Nat) : Int))
  else if sp = 2 then
    let slot := bits a 60 4
    match (s.front d.part).streams[slot]? with
    | some st =>
      let rb := recBits (streamRoot st.ent)
      some (Point.mk true slot (((st.pos : Int) + sext 24 (bits a 36 24)) * (2 ^ rb : Nat) + bits a 0 36 + off))
    | none => some (Point.mk true slot 0)
  else none

/-- Bytes from a destination address to the next 64-byte boundary. -/
def State.toLine (s : State) (d : Desc) (off : Nat) : Nat :=
  match s.pointOf d true off with
  | some pt => 64 - (pt.addr % 64).toNat
  | none => 64 - (d.dst + off) % 64

/-- The most bytes that one read of a memory source brings: 64, in whole units of 16 bytes, so that no RD asks for more than
the least payload limit (R379, R383, R388). (log 64, DESIGN CHOICE) -/
def State.readMost (s : State) (d : Desc) : Nat :=
  match s.pointOf d false d.off with
  | some pt => 64 - (pt.addr % 16).toNat
  | none => 64

/-- The length of the next piece. -/
def State.pieceLen (s : State) (d : Desc) : Nat :=
  min (min (min (s.toLine d d.off) (s.readMost d)) (d.len - d.off)) (4096 - d.off % 4096)

/-- The points whose translation a piece needs, each with its access: the first and the last byte of a memory source, and
the first of a memory destination. -/
def State.needs (s : State) (d : Desc) (n : Nat) : List (Point × Bool) :=
  let src := (s.pointOf d false d.off).toList
  let last := (s.pointOf d false (d.off + n - 1)).toList
  (if d.op = 2 then [] else (src ++ last).map (·, false)) ++ ((s.pointOf d true d.off).toList).map (·, true)

/-- A walk begins for a point, where the engine has none (R332, R346). -/
def State.beginWalk (s : State) (e : Nat) (d : Desc) (pt : Point) (wr : Bool) : State :=
  if s.walks.any (fun w => w.eng == e && w.uid == d.uid) || !s.bit F.CHT_CTL.EN [] then s
  else
    ({ (s : State) with walks := s.walks ++ [CWalk.mk s.nextWalk e d.uid d.part d.gen pt wr false], nextWalk := s.nextWalk + 1 }).incFld
      F.CHT_STAT.MISS [] 1

/-- What a point maps to for engine `e`. -/
def State.lookup (s : State) (e : Nat) (d : Desc) (pt : Point) (wr : Bool) : XOut :=
  match (s.eng e).xl.find? (fun x => x.1 == d.uid && x.2.1 == pt) with
  | some x => .ok x.2.2
  | none => (s.xlate d.part pt wr []).out

/-- Bytes of a berth for a ferry read (R200, R329, R331): the data, or STATUS and CODE of the failure; none while the schedule,
or an elastic use before it, has its banks (R29, R186). -/
def State.berthRead (s : State) (d : Desc) (adr n : Nat) : State × Option (Bytes ⊕ (Nat × Nat)) :=
  let c := bits adr 32 16
  let h := bits adr 25 7
  let off := bits adr 0 25
  let mine : Bool := s.fld F.CLU_BERTH.PART [c, h] == d.part && s.fld F.CLU_BERTH.GEN [c, h] == d.gen
  if s.bit F.CLU_BERTH.VAL [c, h] && s.bit F.CLU_BERTH.ZPND [c, h] && mine then (s, some (.inl (List.replicate n 0)))
  else if s.resident c h && mine && decide (off + n ≤ s.berthLen c h) then
    let st := s.berthStore c h
    let lo := s.berthBase c h + off
    if !s.banksIdle c st lo n then (s, none)
    else
      let s := s.takeBanks c st lo n
      let es := (s.clu c).eccIn st lo (lo + n)
      let s := es.foldl (fun a e => a.countEcc c st e.1 (e.2 == 2)) s
      if es.any (fun e => e.2 == 2) then (s, some (.inr (3, st))) else (s, some (.inl (((s.clu c).store st).bytes lo n)))
  else (s, some (.inr (6, 0)))

/-- The bytes moved into streamed berths (R364). -/
def State.countMoved (s : State) (d : Desc) (c h n : Nat) : State :=
  if (d.stage == 1 || d.stage == 3) && s.bit F.CLU_BERTH.STR [c, h] then
    s.modFront d.part (fun f => { f with strBytes := f.strBytes + n })
  else s

/-- The bytes that LEG descriptors move, wherever they go, are counted for the present leg (R364). -/
def State.countLeg (s : State) (d : Desc) (n : Nat) : State :=
  if d.stage = 3 then
    s.modFront d.part (fun f => match f.legs with
      | (t, b, m) :: r => { f with legs := (t, b + n, m) :: r }
      | [] => f)
  else s

/-- Deliver a piece to a berth: a load of the front end goes in while the berth is LOADING; any other write is a remote write
of class FERRY (R209, R331). `none` where it is done, or STATUS and CODE. -/
def State.toBerth (s : State) (d : Desc) (off : Nat) (data : Bytes) : State × Option (Nat × Nat) :=
  let adr := d.dst + off
  let c := bits adr 32 16
  let h := bits adr 25 7
  let o := bits adr 0 25
  match d.load with
  | some _ =>
    if s.bit F.CLU_BERTH.VAL [c, h] && !s.bit F.CLU_BERTH.ZPND [c, h] && s.fld F.CLU_BERTH.PART [c, h] == d.part &&
        s.fld F.CLU_BERTH.GEN [c, h] == d.gen && decide (o + data.length ≤ s.berthLen c h) then
      let st := s.berthStore c h
      let a := s.berthBase c h + o
      (s.modClu c (fun k => (k.eccClear st a (a + data.length)).setStore st ((k.store st).store a data)), none)
    else (s, none)
  | none =>
    let w : RemoteWrite := ⟨c, h, o, data, .ferry, BitVec.ofNat 6 s.pos, d.part, BitVec.ofNat 16 d.gen⟩
    match s.judgeWrite w with
    | .inl g => ((s.landWrite w g).countMoved d c h data.length, none)
    | .inr r => (s.dropWrite w r, if r = 0 then none else some (4, r))

/-- What becomes of a piece's data: done, failed with STATUS and CODE, waits on the ring, or written to memory under a tag. -/
inductive Put where
  | done | fail (st code : Nat) | wait | mem
  deriving DecidableEq, Repr

/-- Deliver the data of a piece at transfer offset `off`. -/
def State.deliver (s : State) (d : Desc) (off : Nat) (data : Bytes) (dpa tag : Nat) : State × Put :=
  match d.dsp with
  | 1 =>
    let r := s.toBerth d off data
    (r.1, match r.2 with | none => .done | some (a, b) => .fail a b)
  | 4 =>
    let c := bits d.dst 32 16
    let g := bits d.dst 8 1
    if s.fld F.CHN_GWCFG.MODE [c, g] ≠ 1 ∨ s.partOf c ≠ d.part ∨ !s.inPart c then (s, .fail 7 0)
    else
      let r := s.lbufWrite ⟨c, ⟨g % 2, Nat.mod_lt _ (by decide)⟩, data, d.part, BitVec.ofNat 16 d.gen⟩
      if r.2 then (r.1, .done) else (s, .wait)
  | _ =>
    let r := s.memAccess true dpa data.length data tag d.part d.gen d.key
    if r.2 then (r.1, .mem) else (r.1, .fail 5 0)

/-- The wave in which an engine issues its first chunk of the period (R273, R325): no chunk begins from arrival to release,
nor in RAMP before the engine's wave. -/
def State.chunkOpen (s : State) (e : Nat) : Bool :=
  match s.fld F.TDE_TSTAT.STATE [] with
  | 0 => true
  | 4 => decide (e / 4 ≤ s.fld F.TDE_RAMP.WAVE [])
  | _ => false

/-- A piece leaves engine `e`: the offset moves on, and at a chunk boundary a PREEMPT parks the descriptor (R341). -/
def State.advancePiece (s : State) (e uid n : Nat) : State :=
  let s := s.modEng e (fun k => (k.modDesc uid (fun d => { d with off := d.off + n })).dropXl uid)
  match (s.eng e).act with
  | some d =>
    if d.off % 4096 = 0 ∨ d.len ≤ d.off then
      let s := s.modEng e (fun k => { k with chunk := false })
      if (s.eng e).pre && decide (d.off < d.len) then s.parkActive e 0 0 0 0 0 1 else s
    else s
  | none => s

/-- The first point of a piece that is not yet translated, with what its lookup gave. -/
def State.firstOpen (s : State) (e : Nat) (d : Desc) (n : Nat) : Option (Point × Bool × XOut) :=
  (s.needs d n).foldl (fun a x => match a with
    | some _ => a
    | none => match s.lookup e d x.1 x.2 with
      | .ok _ => none
      | o => some (x.1, x.2, o)) none

/-- The physical address of a point that is translated. -/
def State.paOf (s : State) (e : Nat) (d : Desc) (pt : Point) (wr : Bool) : Nat :=
  match s.lookup e d pt wr with | .ok pa => pa | _ => 0

/-- Cluster and gateway of the landing buffer that a piece in flight of engine `k` goes to. -/
def Eng.gateOf (k : Eng) (f : Fly) : Option (Nat × Nat) :=
  match k.all.find? (fun d => d.uid == f.uid) with
  | some d => if d.dsp = 4 then some (bits d.dst 32 16, bits d.dst 8 1) else none
  | none => none

/-- Issue the next piece, every address of it being translated. (log 52, DEDUCED) -/
def State.issuePiece (s : State) (e : Nat) (d : Desc) (n : Nat) : State :=
  let tag := s.nextTag
  let dpa := match s.pointOf d true d.off with | some pt => s.paOf e d pt true | none => 0
  if (s.pointOf d true d.off).isSome && !s.mapped dpa n then s.parkActive e 6 7 1 dpa 0 0
  else
    let finish := fun (s : State) (fly : Option Fly) =>
      let s := match fly with | some f => s.modEng e (fun k => { k with fly := k.fly ++ [f] }) | none => s
      let used := match fly with | some f => if f.n1 < f.len then 2 else 1 | none => 1
      (s.bumpTag used).advancePiece e d.uid n
    let put := fun (s : State) (data : Bytes) =>
      -- an entry does not pass an earlier one of its landing buffer
      if d.dsp == 4 && (s.eng e).fly.any (fun f => (s.eng e).gateOf f == some (bits d.dst 32 16, bits d.dst 8 1)) then s
      else
      let r := s.deliver d d.off data dpa tag
      match r.2 with
      | .done => finish (r.1.countLeg d n) none
      | .mem => finish (r.1.countLeg d n) (some ⟨d.uid, d.part, d.gen, d.off, n, true, tag, false, dpa, n, 0, none, none, false⟩)
      | .fail a b => (r.1.failDesc e d.uid a b d.off)
      | .wait => s
    if d.op = 2 then put s ((List.range n).map (fun i => listGet 0 (leBytes 8 d.src) ((d.off + i) % 8)))
    else if d.ssp = 1 then
      let r := s.berthRead d (d.src + d.off) n
      match r.2 with
      | some (.inl data) => put r.1 data
      | some (.inr (a, b)) => r.1.failDesc e d.uid a b d.off
      | none => s
    else
      match s.pointOf d false d.off, s.pointOf d false (d.off + n - 1) with
      | some pt, some pl =>
        let pa := s.paOf e d pt false
        let pe := s.paOf e d pl false
        -- a source that runs on in another page is read in two parts, the second under the next tag
        let split : Bool := pe != pa + (n - 1) || s.pmapOf pa != s.pmapOf pe
        let n1 := if split then min n (1024 - pa % 1024) else n
        let rest := n - n1
        let parts := if split && decide (0 < rest) then [(pa, n1, tag), (pe + 1 - rest, rest, (tag + 1) % 4096)]
          else [(pa, n, tag)]
        if parts.all (fun p => s.mapped p.1 p.2.1) then
          let r := parts.foldl (fun (a : State × Bool) p =>
            if a.2 then a.1.memAccess false p.1 p.2.1 [] p.2.2 d.part d.gen d.key else a) (s, true)
          if r.2 then
            finish r.1 (some ⟨d.uid, d.part, d.gen, d.off, n, false, tag, false, dpa, n1, pa % 16, none, none, false⟩)
          else r.1.failDesc e d.uid 5 0 d.off
        else s.parkActive e 6 7 0 pa 0 0
      | _, _ => s

/-- FERRY_PIECE_ISSUE (R321): the engine translates and issues the next piece of its active descriptor; a translation not
in the cache begins a walk, and a chart fault parks the descriptor. -/
def State.pieceIssue (s : State) (e : Nat) : State :=
  let k := s.eng e
  match k.act with
  | none => s
  | some d =>
    if !s.bit F.FRY_CTL.EN [] || decide (d.len ≤ d.off) || d.fail.isSome || decide (128 ≤ k.fly.length) then s
    else if !k.chunk && !(s.chunkOpen e && decide (d.due ≤ s.bucketBytes d.part)) then s
    else
      let n := s.pieceLen d
      match s.firstOpen e d n with
      | some (pt, wr, .miss) => s.beginWalk e d pt wr
      | some (_, wr, .fault code level addr entry) =>
        if k.freeSlot.isSome then (s.countFault code).parkActive e code level (b2n wr) addr entry 0 else s
      | _ =>
        let s := if k.chunk then s
          else if d.off < d.paid then s.modEng e (fun k => { k with chunk := true })
          else
            let s := s.takeBytes d.part d.chunkLen
            (s.incFld F.FRY_ESTAT.CHUNKS [e] 1).modEng e (fun k =>
              { k.modDesc d.uid (fun x => { x with paid := d.off + d.chunkLen }) with chunk := true })
        s.issuePiece e d n

/-! ### Data that waits on the ring for a landing buffer (R233) -/

/-- The first piece in flight that goes to a landing buffer, holds its data, and has no earlier piece of its gateway before
it. -/
def Eng.ringHead (k : Eng) : Option Nat :=
  (List.range k.fly.length).find? (fun i =>
    match k.fly[i]? with
    | some f => f.ring && !f.sink && (match k.gateOf f with
      | some g => !(k.fly.take i).any (fun x => k.gateOf x == some g)
      | none => false)
    | none => false)

/-- R233: entries go into landing buffers in the order of the pieces, as far as the buffers have room. -/
def State.ringPass (s : State) (e : Nat) : Nat → State
  | 0 => s
  | n + 1 =>
    let k := s.eng e
    match k.ringHead with
    | none => s
    | some i =>
      match k.fly[i]? with
      | none => s
      | some f =>
        match k.all.find? (fun d => d.uid == f.uid) with
        | none => s
        | some d =>
          let gone := s.modEng e (fun k => { k with fly := k.fly.eraseIdx i })
          let q := gone.deliver d f.off (f.got1.getD []) f.dpa f.tag
          match q.2 with
          | .wait => s
          | .fail a c => State.ringPass (q.1.failDesc e f.uid a c f.off) e n
          | _ => State.ringPass (q.1.countLeg d f.len) e n

/-- FERRY_PIECE_ISSUE. -/
def execFerryPieceIssue (e : Fin 64) (s : State) : Res := onCore s (fun s => (s.ringPass e.val 128).pieceIssue e.val)

/-- The offset a response names. -/
def respOff (r : PieceResponse) : Nat :=
  match r with | .data o _ => o | .done o => o | .poison o => o | .memErr o => o

/-- R321, R329, R343: the `i`th piece in flight of engine `e` is answered: it ends, or its data goes on to its destination. -/
def State.pieceEnd (s : State) (e i : Nat) (r : PieceResponse) : State :=
  let k := s.eng e
  match k.fly[i]? with
  | none => s
  | some f =>
    let gone := s.modEng e (fun k => { k with fly := k.fly.eraseIdx i })
    if f.sink then gone
    else
      match r with
      | .done _ => gone.modEng e (fun k => k.modDesc f.uid (fun d =>
          if d.fin = 1 ∧ d.len ≤ f.off then { d with fin := 2 } else d))
      | .poison _ => gone.failDesc e f.uid 5 0 f.off
      | .memErr _ => gone.failDesc e f.uid 5 0 f.off
      | .data _ b =>
        match k.all.find? (fun d => d.uid == f.uid) with
        | none => gone
        | some d =>
          if d.dsp = 4 then
            -- an entry for a landing buffer waits its turn on the ring
            (s.modEng e (fun k => { k with
              fly := k.fly.take i ++ [{ f with n1 := f.len, got1 := some (slice b 0 f.len), got2 := none, ring := true }] ++
                k.fly.drop (i + 1) })).ringPass e 128
          else
          let q := gone.deliver d f.off (slice b 0 f.len) f.dpa f.tag
          match q.2 with
          | .done => q.1.countLeg d f.len
          | .fail a c => q.1.failDesc e f.uid a c f.off
          | .wait => s
          | .mem => (q.1.countLeg d f.len).modEng e (fun k =>
              { k with fly := k.fly.take i ++ [{ f with wr := true }] ++ k.fly.drop i })

/-- FERRY_PIECE_RESPONSE (R321, R329, R343): the oldest piece of the engine in flight at that offset is answered. -/
def State.pieceResponse (s : State) (e : Nat) (r : PieceResponse) : State :=
  let fits := fun (f : Fly) => f.off == respOff r && (match r with | .data _ _ => !f.wr && !f.ring | .done _ => f.wr | _ => true)
  match findIdx fits (s.eng e).fly with
  | some i => s.pieceEnd e i r
  | none => s

/-- FERRY_PIECE_RESPONSE. -/
def execFerryPieceResponse (e : Fin 64) (r : PieceResponse) (s : State) : Res := onCore s (fun s => s.pieceResponse e.val r)

/-- A piece in flight waits for an answer under a request tag. -/
def Fly.waitsFor (f : Fly) (tag : Nat) : Bool := f.tag == tag || (decide (f.n1 < f.len) && (f.tag + 1) % 4096 == tag)

/-- The engine with a piece in flight under a request tag, the place of that piece, and the piece. -/
def State.tagged (s : State) (tag : Nat) (wr : Bool) : Option (Nat × Nat × Fly) :=
  engines.findSome? (fun e =>
    match findIdx (fun (f : Fly) => f.waitsFor tag && f.wr == wr) (s.eng e).fly with
    | some i => ((s.eng e).fly[i]?).map (e, i, ·)
    | none => none)

/-- R383: read data has come under a tag: the piece ends when every part of it has. -/
def State.readData (s : State) (tag : Nat) (aligned : Bool) (data : Bytes) : State :=
  match s.tagged tag false with
  | none => s
  | some (e, i, f) =>
    let part : Fly :=
      if f.tag = tag then { f with got1 := some (slice data (if aligned then f.skip else 0) f.n1) }
      else { f with got2 := some (slice data 0 (f.len - f.n1)) }
    let s := s.modEng e (fun k => { k with fly := listSet k.fly i part })
    match part.got1, part.got2 with
    | some a, some b => s.pieceEnd e i (.data f.off (a ++ b))
    | some a, none => if f.n1 < f.len then s else s.pieceEnd e i (.data f.off a)
    | _, _ => s

/-! ### The end of a descriptor (R328, R329) -/

/-- The status block (R328). -/
def State.statusBlock (s : State) (st code bytes : Nat) : Bytes :=
  leBytes 4 (st + 256 * code) ++ leBytes 4 bytes ++ leBytes 4 (s.period % 2 ^ 32) ++ leBytes 4 0

/-- The last step: STALLY rises where the descriptor succeeded, and the descriptor leaves. No tally changes between SEALED and
RAMP (R266). -/
def State.finishDesc (s : State) (e : Nat) (d : Desc) : State :=
  let sealed := [2, 3].contains (s.fld F.TDE_TSTAT.STATE [])
  if sealed && d.fail.isNone && bitAt d.flags 1 then s
  else
  let s := s.modEng e (fun k => k.remove d.uid)
  match d.fail with
  | some (st, code, _) => s.descFailed d e st code
  | none =>
    if bitAt d.flags 1 then
      (s.elasticTally d.stally d.samt d.part d.gen none).takeWaits
    else s

/-- DESCRIPTOR_END (R328): one step of the end of descriptor `d`: the status block, then the tally. -/
def State.endDesc (s : State) (e : Nat) (d : Desc) : State :=
  if !bitAt d.flags 2 || d.fin == 2 then s.finishDesc e d
  else if d.fin = 1 then s
  else
    let pt : Point := ⟨false, 0, d.doneva⟩
    match s.lookup e d pt true with
    | .miss => s.beginWalk e d pt true
    | .fault code level addr entry => s.parkStatus e d code level addr entry
    | .ok pa =>
      let blk := match d.fail with
        | some (st, code, off) => s.statusBlock st code off
        | none => s.statusBlock 0 0 d.len
      let tag := s.nextTag
      let r := s.memAccess true pa 16 blk tag d.part d.gen d.key
      let s := r.1.bumpTag 1
      let s := s.modEng e (fun k => k.dropXl d.uid)
      if r.2 then
        s.modEng e (fun k => { k.modDesc d.uid (fun d => { d with fin := 1 }) with
          fly := k.fly ++ [⟨d.uid, d.part, d.gen, d.len, 16, true, tag, false, pa, 16, 0, none, none, false⟩] })
      else
        -- the status write itself met a memory error: the descriptor ends with it
        s.modEng e (fun k => k.modDesc d.uid (fun d =>
          { d with fin := 2, fail := match d.fail with | some f => some f | none => some (5, 0, d.len) }))

/-- The descriptor of an engine that has moved everything, or failed, with no piece of it in flight; a parked one ends once an
ABORT has ended it (R340). -/
def State.ending (s : State) (e : Nat) : Option Desc :=
  let k := s.eng e
  let aborted := k.park.filterMap (fun p => p.bind (fun x => if x.ended then some x.d else none))
  (k.act.toList ++ k.q ++ aborted).find? (fun d =>
    (d.fail.isSome || decide (d.len ≤ d.off)) && (d.fin == 2 || !k.fly.any (fun f => f.uid == d.uid)))

/-- DESCRIPTOR_END. -/
def execDescriptorEnd (e : Fin 64) (s : State) : Res := onCore s fun s =>
  let s := s.ringPass e.val 128
  match s.ending e.val with
  | some d => s.endDesc e.val d
  | none => s

/-! ### Choice (R323), stealing (R326, R327) -/

/-- The active descriptor returns to the head of its queue. -/
def State.preempt (s : State) (e : Nat) : State :=
  let k := s.eng e
  match k.act with
  | some d => (s.setEng e { k with act := none, chunk := false, pre := false, q := d :: k.q }).incFld F.FRY_CNT.PREEMPT [] 1
  | none => s

/-- A queued descriptor becomes active; WAMT leaves its tally the first time (R322). -/
def State.activate (s : State) (e : Nat) (d : Desc) : State :=
  let s := s.modEng e (fun k => { k with q := k.q.filter (fun x => x.uid != d.uid), act := some { d with begun := true }, pre := false })
  if !d.begun && bitAt d.flags 0 then s.elasticTally d.wtally (-(d.wamt : Int)) d.part d.gen none else s

/-- ENGINE_CHOOSE (R323): at a chunk boundary, or with nothing active, while chunks may begin (R266). -/
def State.choose (s : State) (e : Nat) : State :=
  let k := s.eng e
  if !s.bit F.FRY_CTL.EN [] || k.chunk || !s.chunkOpen e then s
  else
    let prio := fun (d : Desc) => s.fld F.FRY_PRATE.PRIO [d.part]
    let full := k.freeSlot.isNone
    let ok := fun (d : Desc) => decide (d.off < d.len) && d.fail.isNone && s.ready d
    match k.act with
    | some d =>
      if d.len ≤ d.off ∨ d.fail.isSome then s
      else
        let best := (if full then [] else k.q.filter ok).foldl (fun (a : Option Desc) x =>
          match a with
          | none => if prio d < prio x ∨ !ok d then some x else none
          | some b => if prio b < prio x ∨ (prio b = prio x ∧ x.uid < b.uid) then some x else a) none
        match best with
        | some x => (s.preempt e).activate e x
        | none => if ok d then s else s.preempt e
    | none =>
      if full then s
      else
        let best := (k.q.filter ok).foldl (fun (a : Option Desc) x =>
          match a with
          | none => some x
          | some b => if prio b < prio x ∨ (prio b = prio x ∧ x.uid < b.uid) then some x else a) none
        match best with
        | some x => s.activate e x
        | none => s

/-- ENGINE_CHOOSE. -/
def execEngineChoose (e : Fin 64) (s : State) : Res := onCore s (fun s => s.choose e.val)

/-- Distance round the ring (R316). -/
def engDist (a b : Nat) : Nat := min (a - b + (b - a)) (64 - (a - b + (b - a)))

/-- A descriptor that engine `e` may steal (R326). -/
def State.stealable (s : State) (e : Nat) (d : Desc) : Bool :=
  !d.begun && bitAt (s.fld F.FRY_PMASK.MASK [d.part]) e && !s.heldByKey d

/-- STEAL_ATTEMPT (R326). -/
def execStealAttempt (e : Fin 64) (s : State) : Res := onCore s fun s =>
  let e := e.val
  let k := s.eng e
  let idle := k.act.isNone && !k.q.any (fun d => s.ready d)
  if !s.bit F.FRY_CTL.EN [] || !s.bit F.FRY_CTL.STEAL [] || !idle || k.freeSlot.isNone || decide (64 ≤ k.q.length) then s
  else
    let cand := engines.filter (fun v => decide (1 ≤ engDist e v) && decide (engDist e v ≤ 4) &&
      (s.eng v).q.any (s.stealable e))
    let best := cand.foldl (fun (a : Option Nat) v =>
      match a with
      | none => some v
      | some b =>
        let lv := (s.eng v).q.length
        let lb := (s.eng b).q.length
        if lb < lv ∨ (lb = lv ∧ engDist e v < engDist e b) then some v else a) none
    match best with
    | none => s
    | some v =>
      match ((s.eng v).q.filter (s.stealable e)).foldl (fun (a : Option Desc) d =>
          match a with | none => some d | some b => if d.uid < b.uid then some d else a) none with
      | some d =>
        let s := s.modEng v (fun k => { k with q := k.q.filter (fun x => x.uid != d.uid) })
        (s.modEng e (fun k => { k with q := insertBy (·.uid) d k.q })).incFld F.FRY_CNT.STEALS [] 1
      | none => s

/-! ### Walks that end, and the records of parks -/

/-- R342: the address of the leaf entry of a stream position: in the leaf table that the directory entry names. -/
def leafAt (ents : List CEnt) (part root n : Nat) : Option Nat :=
  (ents.find? (fun e => e.part == part && e.level == 5 && e.pa == bits root 12 40 * 4096 + 8 * bits n 13 9)).map (fun e =>
    bits e.entry 12 40 * 4096 + 8 * bits n 4 9)

/-- CHART_WALK_COMPLETE (R332, R333, R337, R338, R342): the entries a walk read give a translation for the access that waits,
or park its descriptor. Valid entries are cached, unless an invalidation was written since the walk began. Where the front
end resolves the fault from the stream pool, the next entry read is the pool's. -/
def State.walkComplete (s : State) (id : Nat) (entries : List Fetched64) : State :=
  match s.walks.find? (fun w => w.id == id) with
  | none => s
  | some w =>
    let e := w.eng
    let ended := { s with walks := s.walks.filter (fun x => x.id != id) }
    match (s.eng e).all.find? (fun d => d.uid == w.uid) with
    | none => ended
    | some d =>
      let x := s.xlate w.part w.pt w.wr entries
      let cache := fun (a : State) => if w.stale then a else a.cachePut x.got
      match x.out with
      | .ok pa => (cache ended).modEng e (fun k => { k with xl := k.xl ++ [(w.uid, w.pt, pa)] })
      | .miss => s
      | .fault code level addr entry =>
        let s' := cache ended
        let park := fun (a : State) =>
          if d.len ≤ d.off ∨ d.fail.isSome then a.parkStatus e d code level addr entry
          else (a.countFault code).parkActive e code level (b2n w.wr) addr entry 0
        let st := (s.front d.part).streams[w.pt.slot]?
        let root := match st with | some b => streamRoot b.ent | none => 0
        let n := w.pt.addr.toNat / 2 ^ recBits root
        match s.poolEntry d w.pt.slot code level (b2n w.wr), x.left with
        | some at_, .entry blk :: _ =>
          if !s.mapped at_ 8 then park (s'.post 0x0506 0x06 partNone locNone at_ 0)
          else
            match leafAt (s.cache ++ x.got) d.part root n with
            | some la =>
              let r := (s'.countFault code).frontAccess true la 8 (leBytes 8 (blk.toNat + 13))
              (r.1.setFld F.CHT_SPOOL.CNT [d.part] (s.fld F.CHT_SPOOL.CNT [d.part] - 1)).incFld F.CHT_FCNT.POOL [] 1
            | none => park s'
        | _, _ =>
          park (if code = 3 ∧ level = 6 ∧ w.wr ∧ s.fld F.CHT_SPOOL.CNT [d.part] = 0 then
            s'.post 0x0505 0x04 d.part e ((st.map (·.index)).getD 0) n
          else s')

/-- CHART_WALK_COMPLETE. -/
def execChartWalkComplete (id : Nat) (entries : List Fetched64) (s : State) : Res := onCore s (fun s => s.walkComplete id entries)

/-- FAULT_RECORD_WRITE (R339): the oldest record goes to its slot once the queue has room. -/
def execFaultRecordWrite (s : State) : Res := onCore s fun s =>
  match s.frecs with
  | [] => s
  | (e, _, b) :: r =>
    let w := s.fld F.FRY_FQIDX.WIDX []
    let n := 2 ^ min 16 (max 4 (s.fld F.FRY_FQBASE.LSIZE []))
    if n ≤ (w + 2 ^ 32 - s.fld F.FRY_FQIDX.RIDX []) % 2 ^ 32 then
      if s.fqFull then s
      else ({ s with fqFull := true }).post 0x0504 0x04 partNone locNone w (s.fld F.FRY_FQIDX.RIDX [])
    else
      let blk := leBytes 4 w ++ b.drop 4
      let x := s.frontAccess true (s.fld F.FRY_FQBASE.BASE [] * 4096 + 64 * (w % n)) 64 blk
      let s := ({ x.1 with frecs := r, fqFull := false }).setFld F.FRY_FQIDX.WIDX [] ((w + 1) % 2 ^ 32)
      s.post 0x0501 0x04 (leAt b 8 1) e w (leAt b 4 1 * 256 + leAt b 5 1)

/-! ### Resolution (R340) and PREEMPT (R341) -/

/-- RETRY of a parked descriptor: it is ready again at the head of the queue, with a fresh walk; a failure that one of its
pieces met stands (R329). -/
def State.retryPark (s : State) (e slot : Nat) (x : Park) : State :=
  s.modEng e (fun k => { k.dropXl x.d.uid with park := listSet k.park slot none, q := x.d :: k.q })

/-- The parked descriptor that a resolution command names. -/
def State.parkAt (s : State) (e slot : Nat) : Option Park :=
  if e < 64 then listGet none (s.eng e).park slot else none

/-- R340: RES of a command that names an empty slot: 1 where a reset removed what it held, else 2. -/
def State.goneRes (s : State) (e slot : Nat) : Nat :=
  if s.gone.contains (e, slot) then 1 else 2

/-- FRY_RESCMD for an engine's park: OP 1 RETRY, 2 ABORT. (log 53, DEDUCED) -/
def State.resEngine (s : State) (q : Requester) (op e slot : Nat) : State :=
  match s.parkAt e slot with
  | none => (s.setFld F.FRY_RESCMD.RES [] (s.goneRes e slot)).status stOk
  | some x =>
    if !isFw q && !(s.rightsOf q).ofPart x.d.part then
      (s.setFld F.FRY_RESCMD.RES [] 3).deny q (regAddr .FRY_RESCMD [])
    else
      let s :=
        if op = 1 then s.retryPark e slot x
        else
          let st := if x.cause = 1 then 8 else 2
          let off := match x.d.fail with | some (_, _, o) => min o x.d.off | none => x.d.off
          -- one that faulted at its status write ends without the block
          s.modEng e (fun k => { k with park := listSet k.park slot (some { x with
            ended := true, d := { x.d with fail := some (st, x.code, off), fin := if x.stw then 2 else x.d.fin } }) })
      (s.setFld F.FRY_RESCMD.RES [] 0).status stOk

/-- PREEMPT of FRY_ECMD_e (R341). -/
def State.ecmd (s : State) (q : Requester) (e : Nat) : State :=
  let k := s.eng e
  match k.act with
  | none => s.status stOk
  | some d =>
    if !isFw q && !(s.rightsOf q).ofPart d.part then s.deny q (regAddr .FRY_ECMD [e])
    else if k.freeSlot.isNone then s.status stOk
    else if k.chunk || decide (d.len ≤ d.off) then (s.modEng e (fun k => { k with pre := true })).status stOk
    else (s.parkActive e 0 0 0 0 0 1).status stOk

/-- PREEMPT. -/
def execPreempt (q : Requester) (e : Fin 64) (s : State) : Res := onCore s (fun s => s.ecmd q e.val)

/-! ### The drain of an old generation (R343, R344) -/

/-- R343 steps 1 to 6 in the engines and the chart unit for partition `p`. -/
def State.drainStart (s : State) (p gen : Nat) : State :=
  let s := engines.foldl (fun a e =>
    let k := a.eng e
    let wait := k.fly.filter (fun f => f.part == p && f.ring && (k.gateOf f).isSome)
    if wait.isEmpty then a
    else
      let a := a.modEng e (fun k => { k with fly := k.fly.filter (fun f => !wait.contains f) })
      wait.foldl (fun a f => match k.gateOf f with | some (c, _) => a.incFld F.CHN_CERR.BSTALE [c] 1 | none => a) a) s
  let s := engines.foldl (fun a e =>
    let k := a.eng e
    if k.all.any (fun d => d.part == p) || k.fly.any (fun f => f.part == p) then
      let mine := fun (d : Desc) => d.part == p
      let act := match k.act with | some d => if mine d then none else some d | none => none
      a.setEng e { k with
        q := k.q.filter (fun d => !mine d), act := act, chunk := k.chunk && act.isSome, pre := k.pre && act.isSome,
        park := k.park.map (fun x => match x with | some y => if mine y.d then none else some y | none => none),
        fly := k.fly.map (fun f => if f.part = p then { f with sink := true } else f) }
    else a) s
  { s with walks := s.walks.filter (fun w => w.part != p), drains := s.drains ++ [(p, gen)] }

/-- The park slots that a reset of partition `p` empties. -/
def State.parksOf (s : State) (p : Nat) : List (Nat × Nat) :=
  engines.flatMap (fun e => (List.range 8).filterMap (fun i =>
    match s.parkAt e i with
    | some x => if x.d.part = p then some (e, i) else none
    | none => none)) ++ (if (s.front p).parked.isSome then [(0x40, 0)] else [])

/-- No request of an old generation of `p` is outstanding. -/
def State.drained (s : State) (p : Nat) : Bool := engines.all (fun e => !(s.eng e).fly.any (fun f => f.part == p && f.sink))

end Sys2Proof.Machine
end

