-- ==== Sys2Proof/Machine/Coh.lean ====
section
/-! DEFINITION. The COH window (R280-R285, R385): its lines, the coherence messages, doorbells and rings; and the event
writer (R306). -/

namespace Sys2Proof.Machine

/-! ### Lines -/

/-- Line `i` of the window as the front end holds it. -/
def State.line (s : State) (i : Nat) : CohLine := SMap.get CohLine.empty s.coh i

/-- Change line `i`. -/
def State.modLine (s : State) (i : Nat) (f : CohLine → CohLine) : State :=
  { s with coh := SMap.upd CohLine.empty s.coh i f }

/-- STATE of a ring (R282): 0 disabled, 1 enabled, 2 error. -/
def State.ringState (s : State) (r : Nat) : Nat :=
  if s.ringErr.contains r then 2 else b2n (s.bit F.FE_RING_CFG.EN [r])

/-- The status line of ring `r` (R282); LASTST and LTAG stay as the last record left them. -/
def State.ringLine (s : State) (r : Nat) : Bytes :=
  let old := (s.line (64 + r)).data
  leBytes 4 (s.fld F.FE_RING_IDX.HEAD [r]) ++ leBytes 4 (s.fld F.FE_RING_IDX.DONE [r]) ++
    leBytes 4 (if s.bit F.FE_RING_CFG.SELF [r] then s.fld F.FE_RING_STL.STAIL [r] else 0) ++
    leBytes 1 (s.ringState r) ++ slice old 0x0D 1 ++ leBytes 2 0 ++ leBytes 8 (s.fld F.PWR_RENERGY.E [r]) ++
    slice old 0x18 8 ++ List.replicate 32 0

/-- The status line of partition `p`. -/
def State.partLine (s : State) (p : Nat) : Bytes :=
  let holds := match (s.part p).cls with | c :: _ => s.fld F.CHN_HOLDT.TOTAL [c] | [] => 0
  leBytes 1 (s.fld F.FE_PSTAT.STATE [p]) ++ leBytes 1 (s.fld F.FE_PSTAT.RING [p]) ++ leBytes 2 (s.fld F.FE_PSTAT.GEN [p]) ++
    leBytes 4 (s.fld F.FE_PSTAT.SEQ [p]) ++ leBytes 8 (s.front p).nvoy ++ leBytes 8 (s.fld F.PWR_PENERGY.E [p]) ++
    leBytes 8 holds ++ leBytes 4 (s.period % 2 ^ 32) ++ List.replicate 28 0

/-- The die status line. -/
def State.dieLine (s : State) : Bytes :=
  leBytes 8 (s.fld F.TDE_TNUM.NUM []) ++ leBytes 4 (s.fld F.CLK_HELM_0.TERM []) ++ leBytes 4 (s.fld F.FE_EVSTAT.WIDX []) ++
    List.replicate 48 0

/-- The present contents of a status line. -/
def State.lineData (s : State) (i : Nat) : Bytes :=
  if i < 128 then s.ringLine (i - 64) else if i < 144 then s.partLine (i - 128) else s.dieLine

/-- The landing of the home (R385). -/
def State.home (s : State) : Option Nat :=
  match s.target (s.fld F.FE_COH_BASE.BASE [] * 2 ^ 14) with
  | some (l, _) => if s.torec l && bitAt (s.fld F.LND_STAT.CLS [l]) 1 then some l else none
  | none => none

/-- Send a COH message about a line to the home. -/
def State.cohSend (s : State) (l opc i : Nat) (data : Bytes) : State :=
  s.sendOn l (s.hdr 1 opc (s.fld F.LND_STAT.PPOS [l]) 0 0 (units16 data.length) i
    (s.fld F.FE_COH_BASE.BASE [] * 2 ^ 14 + 64 * i)) data

/-- Requests outstanding. -/
def State.cohOut (s : State) : Nat := (s.coh.filter (fun e => e.2.st == 1 || e.2.st == 3 || e.2.st == 5)).length

/-- R334: the window lies in no range: an access to a line that needs one posts event 0x0506, and ends with an error. -/
def State.cohNoTarget (s : State) : State :=
  let base := s.fld F.FE_COH_BASE.BASE [] * 2 ^ 14
  if s.bit F.FE_CTL.COHEN [] && (s.target base).isNone then
    ((s.coh.filter (fun e => e.2.dirty && e.2.st == 0)).map (·.1)).foldl (fun a i =>
      (a.modLine i (fun x => { x with dirty := false })).post 0x0506 0x06 partNone locNone (base + 64 * i) 0) s
  else s

/-- R385: lines that need it are asked for, in ascending order, at most four requests being outstanding. (log 47, DEDUCED) -/
def State.cohPump (s : State) : State :=
  match s.home with
  | none => s.cohNoTarget
  | some l =>
    if !s.bit F.FE_CTL.COHEN [] then s
    else
      ((s.coh.filter (fun e => e.2.dirty && e.2.st == 0)).map (·.1)).foldl (fun a i =>
        if 4 ≤ a.cohOut then a
        else if i < 64 then (a.modLine i (fun x => { x with st := 1, dirty := false })).cohSend l 0 i []
        else (a.modLine i (fun x => { x with st := 3 })).cohSend l 1 i []) s

/-- COH_SNPI (R385): the line is given up, with its data where it was modified; a doorbell is then read anew. -/
def execCohSnpi (line : Fin 256) (s : State) : Res := onCore s fun s =>
  let i := line.val
  match s.home with
  | none => s
  | some l =>
    let s := s.giveBack l 1 0
    let x := s.line i
    let s := s.cohSend l 0xA i (if x.st = 4 ∨ x.st = 5 then x.data else [])
    let s := if x.st = 2 ∨ x.st = 4 then s.modLine i (fun x => { x with st := 0 }) else s
    (if i < 64 then s.touch i else s).cohPump

/-! ### Rings (R283-R286) -/

/-- Slots of a ring: LSIZE outside 4 to 16 acts as the nearer limit. (log 47, DEDUCED) -/
def State.ringSize (s : State) (r : Nat) : Nat := 2 ^ min 16 (max 4 (s.fld F.FE_RING_CFG.LSIZE [r]))

/-- `a - b` modulo 2^32 (R284). -/
def sub32 (a b : Nat) : Nat := (a + 2 ^ 32 - b) % 2 ^ 32

/-- R284: a ring in error. -/
def State.ringError (s : State) (r tail : Nat) : State :=
  let s := s.setFld F.FE_RING_CFG.EN [r] 0
  let s := { s with ringErr := r :: s.ringErr }
  let s := (s.incFld F.FE_ERRCNT.RINGERR [] 1).touch (64 + r)
  s.post 0x0101 0x02 (s.fld F.FE_RING_CFG.PART [r]) r tail (s.fld F.FE_RING_IDX.DONE [r])

/-- R281, R284, R285: a doorbell line has been read. -/
def State.bell (s : State) (r v : Nat) : State :=
  if s.bit F.FE_RING_CFG.SELF [r] then s.setFld F.FE_RING_STL.ACK [r] v
  else
    let old := SMap.get 0 s.tails r
    let s := { s with tails := SMap.set 0 s.tails r v }
    let n := s.ringSize r
    if s.bit F.FE_RING_CFG.EN [r] && (decide (n < sub32 v (s.fld F.FE_RING_IDX.DONE [r])) || decide (n < sub32 v old)) then
      s.ringError r v
    else s

/-- COH_DATA (R385): a doorbell is read; a status line that is now owned is written, and written back. -/
def execCohData (line : Fin 256) (owned : Bool) (data : Bytes) (s : State) : Res := onCore s fun s =>
  let i := line.val
  let x := s.line i
  match s.home with
  | none => s
  | some l =>
    if i < 64 then
      if x.st = 1 ∧ !owned then
        let s := s.modLine i (fun x => { x with data := slice data 0 64, st := if x.dirty then 0 else 2 })
        (s.bell i (leAt data 0 4)).cohPump
      else s
    else if x.st = 3 ∧ owned then
      let d := s.lineData i
      ((s.modLine i (fun _ => ⟨d, 5, false⟩)).cohSend l 2 i d).cohPump
    else s

/-- COH_CMP (R385): a WBI is complete. (log 1, DESIGN CHOICE) -/
def execCohCmp (line : Fin 256) (s : State) : Res := onCore s fun s =>
  if (s.line line.val).st = 5 then (s.modLine line.val (fun x => { x with st := 0 })).cohPump else s

/-- The ring has a pending manifest (R286). -/
def State.ringPending (s : State) (r : Nat) : Bool :=
  let t := if s.bit F.FE_RING_CFG.SELF [r] then s.fld F.FE_RING_STL.STAIL [r] else SMap.get 0 s.tails r
  sub32 t (s.fld F.FE_RING_IDX.HEAD [r]) != 0

/-- The enabled rings of a partition. -/
def State.ringsOf (s : State) (p : Nat) : List Nat :=
  (List.range 64).filter (fun r => s.bit F.FE_RING_CFG.EN [r] && s.fld F.FE_RING_CFG.PART [r] == p)

/-- R286: the ring that the next manifest comes from: highest PRIO, longest since its last fetch, lowest number. -/
def State.pickRing (s : State) (p : Nat) : Option Nat :=
  ((s.ringsOf p).filter s.ringPending).foldl (fun (a : Option Nat) r =>
    match a with
    | none => some r
    | some b =>
      let pr := s.fld F.FE_RING_CFG.PRIO [r]
      let pb := s.fld F.FE_RING_CFG.PRIO [b]
      if pb < pr ∨ (pr = pb ∧ SMap.get 0 s.ringLast r < SMap.get 0 s.ringLast b) then some r else a) none

/-- The self ring of a partition, where one is enabled (R285). -/
def State.selfRing (s : State) (p : Nat) : Option Nat := (s.ringsOf p).find? (fun r => s.bit F.FE_RING_CFG.SELF [r])

/-- R314: a write of FE_RING_IDX_r. -/
def State.ringIdxWrite (s : State) (q : Requester) (r v : Nat) : State :=
  if !isFw q && !(s.rightsOf q).ofPart (s.fld F.FE_RING_CFG.PART [r]) then s.deny q (regAddr .FE_RING_IDX [r])
  else if s.bit F.FE_RING_CFG.EN [r] then s.status stBusy
  else
    let v := v % 2 ^ 32
    let s := s.setFlds [r] [(F.FE_RING_IDX.DONE, v), (F.FE_RING_IDX.HEAD, v)]
    let s := if s.bit F.FE_RING_CFG.SELF [r] then s.setFld F.FE_RING_STL.STAIL [r] v else s
    ((s.touch (64 + r)).cohPump).status stOk

/-- RING_IDX_WRITE. -/
def execRingIdxWrite (q : Requester) (r : Fin 64) (v : W64) (s : State) : Res := onCore s (fun s => s.ringIdxWrite q r.val v.toNat)

/-! ### The event writer (R306) -/

/-- An event as its 32 bytes (R307). -/
def eventBytes (e : Event) : Bytes :=
  leBytes 4 e.seq.toNat ++ leBytes 2 e.code.toNat ++ [e.blk, e.part] ++ leBytes 4 e.tide.toNat ++ leBytes 4 e.loc.toNat ++
    leBytes 8 e.arg0.toNat ++ leBytes 8 e.arg1.toNat

/-- R306: an entry whose write failed counts in LOST. -/
def State.eventLost (s : State) : State := s.incFld F.FE_EVSTAT.LOST [] 1

/-- Write one event to its slot of the ring. -/
def State.writeEvent (s : State) (e : Event) : State :=
  let n := 2 ^ min 20 (max 8 (s.fld F.FE_EVBASE.LSIZE []))
  let pa := s.fld F.FE_EVBASE.BASE [] * 4096 + 32 * (e.seq.toNat % n)
  if s.mapped pa 32 then
    let tag := s.nextTag
    let x := s.memAccess true pa 32 (eventBytes e) tag 0 0 0
    let s := x.1.bumpTag 1
    if x.2 then { s with evOut := s.evOut ++ [tag] } else s.eventLost
  else s.eventLost

/-- R306: the queue has room again: the posts it dropped are told by event 0x0001. (log 47, DEDUCED) -/
def State.tellLost (s : State) : State :=
  match s.evDrop with
  | 0 => s
  | n + 1 => State.post { s with evDrop := 0 } 0x0001 0x02 partNone locNone (n + 1) 0

/-- EVENT_APPEND (R306): the oldest queued event goes to its slot; the queue then has room for event 0x0001. -/
def State.eventAppend (s : State) : State :=
  match s.evq with
  | [] => s
  | e :: r =>
    let s : State := { s with evq := r }
    let s := s.setFlds [] [(F.FE_EVSTAT.QDEPTH, r.length), (F.FE_EVSTAT.WIDX, (e.seq + 1).toNat)]
    (s.writeEvent e).tellLost

/-- EVENT_APPEND. -/
def execEventAppend (s : State) : Res := onCore s (fun s => if s.bit F.FE_CTL.EN [] then s.eventAppend else s)

/-- The target of an event-ring write has answered: the die status line is rewritten. -/
def State.eventAck (s : State) (tag : Nat) (error : Bool) : State :=
  let s := { s with evOut := s.evOut.filter (· != tag) }
  ((if error then s.eventLost else s).touch 144).cohPump

end Sys2Proof.Machine
end

