-- ==== Sys2Proof/Machine/Stream.lean ====
section
/-! DEFINITION. The stream table and its cache (R309-R311), the stream commands (R312), and the gather queues (R366). -/

namespace Sys2Proof.Machine

/-! ### Entries (R309) -/

def streamPos (e : Bytes) : Nat := leAt e 0 4 % 2 ^ 24
def streamPart (e : Bytes) : Nat := leAt e 8 1 % 16
def streamPrio (e : Bytes) : Nat := leAt e 9 1
/-- 0 FREE, 1 IDLE, 2 ACTIVE, 3 PAUSED, 4 DONE. -/
def streamState (e : Bytes) : Nat := leAt e 10 1
def streamFlags (e : Bytes) : Nat := leAt e 11 1
def streamNvoy (e : Bytes) : Nat := leAt e 12 4

/-- An entry with its STATE and FLAGS replaced. -/
def streamMark (e : Bytes) (st fl : Nat) : Bytes := overwrite e 10 (leBytes 1 st ++ leBytes 1 fl)

/-! ### The cache (R311) -/

/-- PIN follows the ACTIVE entries of the cache. -/
def State.setPin (s : State) : State :=
  s.setFld F.FE_STAB_STAT.PIN [] (s.scache.filter (fun x => streamState x.2 == 2)).length

/-- R311: put an entry in front; above 16,384 entries the least recently used that is not ACTIVE leaves. -/
def State.cacheStream (s : State) (ix : Nat) (e : Bytes) : State :=
  let c := (ix, e) :: s.scache.filter (fun x => x.1 != ix)
  let c :=
    if 16384 < c.length then
      match findIdx (fun (x : Nat × Bytes) => streamState x.2 != 2) c.reverse with
      | some i => (c.reverse.eraseIdx i).reverse
      | none => c
    else c
  ({ s with scache := c }).setPin

/-- Physical address of an entry (R309). -/
def State.streamPa (s : State) (ix : Nat) : Nat := s.fld F.FE_STAB_BASE.BASE [] * 2 ^ 26 + 32 * ix

/-- An entry: from the cache, or as fetched from package memory. A fetch whose address has no target brings an error (R334):
the entry then reads as FREE, and is not cached. (log 47, DEDUCED) -/
def State.streamGet (s : State) (ix : Nat) (fetched : Bytes) : State × Bytes :=
  match s.scache.find? (fun x => x.1 == ix) with
  | some x => (s.cacheStream ix x.2, x.2)
  | none =>
    let s := s.incFld F.FE_STAB_STAT.MISS [] 1
    if s.mapped (s.streamPa ix) 32 then
      let e := slice fetched 0 32
      (s.cacheStream ix e, e)
    else (s.post 0x0506 0x06 partNone locNone (s.streamPa ix) 0, List.replicate 32 0)

/-- A change of an entry is written through to package memory; with the tag of the write, where it left. -/
def State.streamWrite (s : State) (ix : Nat) (e : Bytes) : State × Option Nat :=
  let s := s.cacheStream ix e
  let r := s.frontAccess true (s.streamPa ix) 32 e
  (r.1, if r.2 then some s.nextTag else none)

/-- A change of an entry. -/
def State.streamPut (s : State) (ix : Nat) (e : Bytes) : State := (s.streamWrite ix e).1

/-! ### Gather queues (R366) -/

/-- A stream leaves every gather queue. -/
def State.unqueue (s : State) (ix : Nat) : State :=
  (List.range 16).foldl (fun a p =>
    if (a.front p).gq.any (fun x => x.1 == ix) then a.modFront p (fun f => { f with gq := f.gq.filter (fun x => x.1 != ix) })
    else a) s

/-- A stream that is IDLE enters the queue of its partition, where it is not in it and the queue has room. -/
def State.enqueue (s : State) (ix : Nat) (e : Bytes) : State :=
  let p := streamPart e
  let f := s.front p
  if f.gq.any (fun x => x.1 == ix) then s.modFront p (fun f => { f with gq := f.gq.map (fun x => if x.1 = ix then (ix, e) else x) })
  else if 256 ≤ f.gq.length then s.modFront p (fun f => { f with gqovf := satAdd 32 f.gqovf 1 })
  else s.modFront p (fun f => { f with gq := f.gq ++ [(ix, e)] })

/-- R310: the update of a bound stream of partition `p` at the end of a voyage: `out` 0 OK, 1 an error, 2 an instance reset. The
record of a voyage waits for the write (R305). -/
def State.streamEnd (s : State) (p : Nat) (b : BStream) (adv out : Nat) : State :=
  let r := s.streamGet b.index b.ent
  let e := r.2
  let pos := if out = 0 then streamPos e + adv else streamPos e
  let pp := bitAt (streamFlags e) 1
  let st := if out = 0 ∧ pos = streamLimit e then 4 else if pp then 3 else 1
  let err := if out = 1 then 1 else streamFlags e % 2
  let nv := if out = 0 then satAdd 32 (streamNvoy e) 1 else streamNvoy e
  let e := streamMark (overwrite (overwrite e 0 (leBytes 4 pos)) 12 (leBytes 4 nv)) st err
  let w := r.1.streamWrite b.index e
  let s : State := match w.2 with
    | some tag => if out = 2 then w.1 else { w.1 with seOut := w.1.seOut ++ [(tag, p)] }
    | none => w.1
  if st = 1 then s.enqueue b.index e else s

/-- The streams bound to the voyage of partition `p` are updated, in ascending index, and let go. -/
def State.releaseStreams (s : State) (p adv out : Nat) : State :=
  ((sortBy (·.index) (s.front p).streams).foldl (fun a b => a.streamEnd p b adv out) s).modFront p (fun f => { f with streams := [] })

/-! ### Stream commands (R312) -/

/-- The entry in FE_SDATA. -/
def State.sdata (s : State) : Bytes := (List.range 4).flatMap (fun k => leBytes 8 (s.fld F.FE_SDATA.DATA [k]))

/-- RES of a command, and the changes it makes to its entry. -/
def State.scmdRun (s : State) (q : Requester) (op ix : Nat) (fetched : Bytes) : State × Nat :=
  if 2 ^ 21 ≤ ix then (s, 3)
  else
    let r := s.streamGet ix fetched
    let e := r.2
    let st := streamState e
    let new := s.sdata
    let may := fun (p : Nat) => isFw q || (s.rightsOf q).ofPart p
    if !(st == 0 || may (streamPart e)) || (op == 2 && !may (streamPart new)) then (s, 4)
    else
      let s := r.1
      match op with
      | 1 => ((List.range 4).foldl (fun a k => a.setFld F.FE_SDATA.DATA [k] (leAt e (8 * k) 8)) s, 0)
      | 2 =>
        let ns := streamState new
        if st = 2 then (s.streamPut ix (overwrite (overwrite e 9 (slice new 9 1)) 24 (slice new 24 8)), 1)
        else if ns = 1 ∨ ns = 3 ∨ (ns = 4 ∧ st ≠ 0) then
          -- R366: a stream rewritten within its partition keeps its place
          let s := if ns = 1 ∧ st = 1 ∧ streamPart e = streamPart new then s else s.unqueue ix
          let s := s.streamPut ix new
          (if ns = 1 then s.enqueue ix new else s, 0)
        else (s, 2)
      | 3 =>
        if st = 1 then ((s.unqueue ix).streamPut ix (streamMark e 3 (streamFlags e)), 0)
        else if st = 2 then (s.streamPut ix (streamMark e 2 (setBit (streamFlags e) 1 true)), 0)
        else (s, if st = 3 then 0 else 2)
      | 4 =>
        if st = 0 then (s, 2)
        else
          let back := if st = 3 then 1 else st
          let e := streamMark e back (setBit (streamFlags e) 1 false)
          let s := s.streamPut ix e
          (if back = 1 then s.enqueue ix e else s, 0)
      | 5 => if st = 2 then (s, 2) else if st = 0 then (s, 0) else ((s.unqueue ix).streamPut ix (List.replicate 32 0), 0)
      | 6 => if st = 2 then (s, 2) else (({ s with scache := s.scache.filter (fun x => x.1 != ix) }).setPin, 0)
      | _ => (s, 0)

/-- A command of FE_SCMD runs and is done; OP then reads 0. -/
def State.scmdDone (s : State) (q : Requester) (op ix : Nat) (fetched : Bytes) : State :=
  let r := s.scmdRun q op ix fetched
  { r.1.setFlds [] [(F.FE_SCMD.BUSY, 0), (F.FE_SCMD.RES, r.2), (F.FE_SCMD.OP, 0), (F.FE_SCMD.INDEX, ix)] with
    scmdq := none }.status stOk

/-- A command of FE_SCMD with the entry that memory holds (R312, R315): the one that waits for its entry, for the requester
that wrote it, or else a new one. -/
def State.scmd (s : State) (q : Requester) (op ix : Nat) (fetched : Bytes) : State :=
  match s.scmdq with
  | some w =>
    if s.fld F.FE_SCMD.OP [] = op ∧ s.fld F.FE_SCMD.INDEX [] = ix then s.scmdDone w op ix fetched else s.status stBusy
  | none => if !isFw q && (s.rightsOf q).pmask == 0 then s.deny q (regAddr .FE_SCMD []) else s.scmdDone q op ix fetched

/-- SCMD_READ. -/
def execScmdRead (q : Requester) (index : BitVec 21) (fetched : Bytes) (s : State) : Res := onCore s (fun s => s.scmd q 1 index.toNat fetched)
/-- SCMD_WRITE. -/
def execScmdWrite (q : Requester) (index : BitVec 21) (fetched : Bytes) (s : State) : Res := onCore s (fun s => s.scmd q 2 index.toNat fetched)
/-- SCMD_PAUSE. -/
def execScmdPause (q : Requester) (index : BitVec 21) (fetched : Bytes) (s : State) : Res := onCore s (fun s => s.scmd q 3 index.toNat fetched)
/-- SCMD_RESUME. -/
def execScmdResume (q : Requester) (index : BitVec 21) (fetched : Bytes) (s : State) : Res := onCore s (fun s => s.scmd q 4 index.toNat fetched)
/-- SCMD_FREE. -/
def execScmdFree (q : Requester) (index : BitVec 21) (fetched : Bytes) (s : State) : Res := onCore s (fun s => s.scmd q 5 index.toNat fetched)
/-- SCMD_FLUSH. -/
def execScmdFlush (q : Requester) (index : BitVec 21) (fetched : Bytes) (s : State) : Res := onCore s (fun s => s.scmd q 6 index.toNat fetched)

end Sys2Proof.Machine
end

