-- ==== Sys2Proof/Machine/FrontEnd.lean ====
section
/-! DEFINITION. Manifests (R283-R297): fetching, the checks in their order, the placement of berths, and the clusters of a
privileged partition (R358). -/

namespace Sys2Proof.Machine

/-! ### Layouts -/

/-- The manifest's fields (R288). -/
def manKind (m : Bytes) : Nat := leAt m 1 1
def manFlags (m : Bytes) : Nat := leAt m 2 2
def manTag (m : Bytes) : Nat := leAt m 8 8
def manAdv (m : Bytes) : Nat := leAt m 0x3C 2
def manNstrm (m : Bytes) : Nat := leAt m 0x3E 2
def manSph (m : Bytes) : Nat := leAt m 0x3B 1
/-- The manifest runs a voyage; a voyage is stream-bound; the front end chooses its streams. -/
def manVoyage (m : Bytes) : Bool := manKind m == 1
def manStrm (m : Bytes) : Bool := manVoyage m && bitAt (manFlags m) 0
def manGather (m : Bytes) : Bool := manStrm m && bitAt (manFlags m) 1

/-- Every byte of a range is zero. -/
def zeroAt (b : Bytes) (off n : Nat) : Bool := (slice b off n).all (· == 0)

/-- A list of `n` entries of `sz` bytes. -/
def entries (b : Bytes) (sz n : Nat) : List Bytes := (List.range n).map (fun i => slice b (sz * i) sz)

/-- The clusters of a rectangle relative to a partition, row by row. -/
def rectClusters (px py x0 y0 w h : Nat) : List Nat :=
  (List.range h).flatMap (fun j => (List.range w).map (fun i => (py + y0 + j) * 50 + px + x0 + i))

/-- The clusters of the rectangle that an entry names at byte `off` (X0, Y0, W, H). -/
def State.entryRect (s : State) (p : Nat) (e : Bytes) (off : Nat) : List Nat :=
  let f := s.front p
  rectClusters f.x0 f.y0 (leAt e off 1) (leAt e (off + 1) 1) (leAt e (off + 2) 1) (leAt e (off + 3) 1)

/-- A rectangle lies within the partition. -/
def State.rectIn (s : State) (p : Nat) (e : Bytes) (off : Nat) : Bool :=
  let f := s.front p
  let w := leAt e (off + 2) 1
  let h := leAt e (off + 3) 1
  decide (1 ≤ w) && decide (1 ≤ h) && decide (leAt e off 1 + w ≤ f.w) && decide (leAt e (off + 1) 1 + h ≤ f.h)

/-- A record with a STATUS alone (R304). -/
def endStatus (st : Nat) : VEnd := ⟨st, 0xFFFFFFFF, 0, 0, 0, 0⟩

/-! ### Fetching (R286, R294) -/

/-- The fault record of a front-end access (R320, R339): engine 0x40, slot 0. -/
def State.parkFront (s : State) (p kind code level addr entry dva : Nat) : State :=
  let d : Desc := ⟨0, p, s.fld F.FE_PSTAT.GEN [p], dva, [], 0, none, 0x40, 0x40, 0, false, none, 0, 0⟩
  let b := s.faultRec 0x40 0 ⟨d, code, level, 0, addr, entry, 0, false, false⟩ 0
  let s := { (s.countFault code) with frecs := s.frecs ++ [(0x40, 0, b)], gone := s.gone.filter (· != (0x40, 0)) }
  s.modFront p (fun f => { f with parked := some ⟨kind, code, level, addr⟩ })

/-- The manifest of partition `p` ends without a voyage, or before it began (R298). -/
def State.closeMan (s : State) (p : Nat) (e : VEnd) : State :=
  let s := s.modFront p (fun f =>
    { f with
      fail := some e, parked := none, gather := false, waiting := false, fetch := [], place := [], toPlace := [] })
  s.toClose p

/-- R294: a manifest that a check ends. -/
def State.refuseMan (s : State) (p : Nat) (e : VEnd) : State := (s.incFld F.FE_ERRCNT.REFUSED [] 1).closeMan p e

/-- What the front end holds for a partition whose next manifest is `m`. -/
def Fe.take (f : Fe) (m : Bytes) : Fe :=
  { f with
    man := m, berths := [], wins := [], descs := [], image := [], streams := [], toPlace := [], loading := [], fetch := [],
    place := [], fail := none, parked := none, seacc := 0, seref := 0, nrep := 0, record := none, gather := false, legs := [],
    strBytes := 0, waiting := false, opening := false, progLeft := 0, placed := false, ready := false, closing := none }

/-- The manifest has been read, or its read has faulted. (log 47, DEDUCED) -/
def State.manRead (s : State) (p va : Nat) (data : Fetched) : State :=
  match s.feFetch p va 128 data with
  | .bytes b => (s.modFront p (fun f => f.take (slice b 0 128))).setPState p 3
  | .chartFault code level addr entry => s.parkFront p 0 code.toNat level.toNat addr.toNat entry.toNat va
  | .memErr => s.parkFront p 0 7 7 va 0 va

/-- Package virtual address of slot `seq` of ring `r`. -/
def State.slotVa (s : State) (r seq : Nat) : Nat := s.fld F.FE_RING_BASE.BASE [r] * 4096 + 128 * (seq % s.ringSize r)

/-- MANIFEST_FETCH (R286): the next manifest of an idle partition, from the ring R286 chooses; or again the one whose fetch a
chart fault had parked (R340). -/
def execManifestFetch (p : Fin 16) (data : Fetched) (s : State) : Res := onCore s fun s =>
  let p := p.val
  let f := s.front p
  let st := s.fld F.FE_PSTAT.STATE [p]
  if !s.bit F.FE_CTL.EN [] then s
  else if st = 2 ∧ f.parked.isNone then
    (s.manRead p (s.slotVa (s.fld F.FE_PSTAT.RING [p]) (s.fld F.FE_PSTAT.SEQ [p])) data).cohPump
  else if st = 1 ∧ !f.halt ∧ !f.dissolving then
    match s.pickRing p with
    | none => s
    | some r =>
      let seq := s.fld F.FE_RING_IDX.HEAD [r]
      let tick := s.ringTick + 1
      let s := { s with ringTick := tick, ringLast := SMap.set 0 s.ringLast r tick }
      let s := (s.setFld F.FE_RING_IDX.HEAD [r] ((seq + 1) % 2 ^ 32)).touch (64 + r)
      let s := s.setFlds [p] [(F.FE_PSTAT.RING, r), (F.FE_PSTAT.SEQ, seq)]
      let s := (s.modFront p (fun f => f.take [])).setPState p 2
      (s.manRead p (s.slotVa r seq) data).cohPump
  else s

/-! ### Checks 1 and 2 -/

/-- R288: version, kind, reserved fields, alignments and counts. (log 48, DEDUCED) -/
def State.manFormat (s : State) (p : Nat) (m : Bytes) : Bool :=
  let self := s.bit F.FE_RING_CFG.SELF [s.fld F.FE_PSTAT.RING [p]]
  leAt m 0 1 == 1 && decide (manKind m ≤ 3) && decide (manFlags m < 4) && (self || leAt m 4 2 == 0) && zeroAt m 0x54 40 &&
    decide (leAt m 0x10 8 % 64 = 0) && decide (leAt m 0x18 4 % 64 = 0) && decide (leAt m 0x20 8 % 32 = 0) &&
    decide (leAt m 0x28 8 % 32 = 0) && decide (leAt m 0x30 8 % 16 = 0) && decide (leAt m 0x48 8 % 4 = 0) &&
    decide (leAt m 0x1C 2 ≤ 4096) && decide (leAt m 0x1E 2 ≤ 1024) && decide (leAt m 0x38 2 ≤ 4096)

/-! ### Check 5: the program image (R225, R293) -/

/-- The directory entry of the `i`th cluster. -/
def dirEntry (img : Bytes) (i : Nat) : Bytes := slice img (leAt img 4 4 + 32 * i) 32

/-- The gateway list. -/
def gateways (img : Bytes) : List Bytes := entries (img.drop (leAt img 8 4)) 16 (leAt img 0x0C 2)

/-- R241: slots of a landing that a compiler may use: three quarters of S at full capacity. -/
def State.slotLimit (s : State) (l : Nat) : Nat :=
  match s.uiPerCcy l with
  | some ui => min 8 (8 * 4 * ui / 64) * 3 / 4
  | none => 0

/-- The cluster of relative position `x`, `y`. -/
def Fe.cluAt (f : Fe) (x y : Nat) : Nat := (f.y0 + y) * 50 + f.x0 + x

/-- A gateway entry meets R293 and R294. -/
def State.gatewayOk (s : State) (p : Nat) (g : Bytes) : Bool :=
  let f := s.front p
  let mode := leAt g 3 1
  let land := leAt g 4 1
  let slot := leAt g 5 1
  let port := s.gwPort (f.cluAt (leAt g 0 1) (leAt g 1 1)) (leAt g 2 1)
  decide (leAt g 0 1 < f.w) && decide (leAt g 1 1 < f.h) && decide (leAt g 2 1 ≤ 1) && decide (mode ≤ 2) && decide (land ≤ 7) &&
    decide (slot ≤ 7) && zeroAt g 8 8 && port.isSome &&
    (mode != 2 || (port == some (s.landEdge land) && s.lstate land == 3 && decide (slot < s.slotLimit land) &&
      -- the slot is bound to no gateway of another partition
      (List.range 1250).all (fun c => s.inPart c == false || s.partOf c == p || (List.range 2).all (fun i =>
        s.fld F.CHN_GWCFG.MODE [c, i] != 2 || s.fld F.CHN_GWCFG.LAND [c, i] != land || s.fld F.CHN_GWCFG.SLOT [c, i] != slot))))

/-- No slot of a landing is bound twice in one list. -/
def slotsApart (gs : List Bytes) : Bool :=
  let ks := (gs.filter (fun g => leAt g 3 1 == 2)).map (fun g => leAt g 4 2)
  (nub ks).length == ks.length

/-- The layout of the image (R293), without its tables. -/
def State.imageOk (s : State) (p : Nat) (m img : Bytes) : Bool :=
  let n := img.length
  let w := leAt img 1 1
  let h := leAt img 2 1
  decide (64 ≤ n) && leAt img 0 1 == 1 && w == leAt m 6 1 && h == leAt m 7 1 && leAt img 3 1 == 0 && zeroAt img 0x0E 50 &&
    decide (leAt img 4 4 + 32 * (w * h) ≤ n) && decide (leAt img 8 4 + 16 * leAt img 0x0C 2 ≤ n) &&
    (List.range (w * h)).all (fun i =>
      let d := dirEntry img i
      decide (leAt d 0 4 % 32 = 0) && decide (1 ≤ leAt d 4 2) && decide (leAt d 4 2 ≤ 1024) && decide (leAt d 6 2 < leAt d 4 2) &&
        decide (leAt d 8 4 % 16 = 0) && decide (leAt d 12 2 ≤ 1024) && zeroAt d 14 2 && zeroAt d 20 12 &&
        decide (leAt d 0 4 + 32 * leAt d 4 2 ≤ n) && decide (leAt d 8 4 + 16 * leAt d 12 2 ≤ n) &&
        decide (leAt d 16 4 + 64 ≤ n)) &&
    (gateways img).all (s.gatewayOk p) && slotsApart (gateways img)

/-- The binding that an image gives gateway `g` of a cluster: the last entry that names it. -/
def State.binding (s : State) (p : Nat) (img : Bytes) (c g : Nat) : Option Bytes :=
  let f := s.front p
  ((gateways img).filter (fun e => f.cluAt (leAt e 0 1) (leAt e 1 1) == c && leAt e 2 1 == g)).getLast?

/-- MODE of that binding; 0 for none. -/
def State.bindMode (s : State) (p : Nat) (img : Bytes) (c g : Nat) : Nat :=
  match s.binding p img c g with | some e => leAt e 3 1 | none => 0

/-- R227: the port enables (PEN) of a cluster under an image: ports inside the partition, and the gateways it binds. -/
def State.penOf (s : State) (p : Nat) (img : Bytes) (c : Nat) : Nat :=
  (List.range 2).foldl (fun pen g => match s.gwPort c g with
    | some port => setBit pen (3 - port) (s.bindMode p img c g != 0)
    | none => pen) (s.fld F.CHN_RCFG.PEN [c])

/-- R225: the first fault of one sailing entry: the port. -/
def State.entryFault (s : State) (p : Nat) (img : Bytes) (c pen ent : Nat) : Option Nat :=
  let on := fun (port : Nat) => port == 4 || bitAt pen (3 - port)
  (List.range 5).foldl (fun (a : Option Nat) o =>
    let src := sailSource ent o
    match a with
    | some x => some x
    | none =>
      if src = 0 then none
      else if 6 ≤ src ∨ (o = 4 ∧ src = 5) then some o
      else if !on o then some o
      else if !on (src - 1) then some (src - 1)
      else
        match (List.range 2).find? (fun g => s.gwPort c g == some o) with
        | some g => if s.bindMode p img c g ≠ 2 then some o else none
        | none => none) none

/-- R225: the first table fault of the cluster of directory entry `i`: entry and port. -/
def State.tableFault (s : State) (p : Nat) (img : Bytes) (i c : Nat) : Option (Nat × Nat) :=
  let d := dirEntry img i
  let pen := s.penOf p img c
  let bad := (List.range (leAt d 12 2)).findSome? (fun k =>
    (s.entryFault p img c pen (leAt img (leAt d 8 4 + 16 * k) 16)).map (k, ·))
  match bad with
  | some x => some x
  | none =>
    (List.range 8).findSome? (fun k =>
      let g := leAt img (leAt d 16 4 + 8 * k) 8
      let first := bits g 52 10
      let len := bits g 41 11
      if bitAt g 63 && (len == 0 || decide (1024 < first + len)) then some (first, 0) else none)

/-- The clusters of partition `p`, in the order of an image's directory. -/
def State.dirClusters (s : State) (p : Nat) : List Nat :=
  let f := s.front p
  rectClusters f.x0 f.y0 0 0 f.w f.h

/-- R228, R450: a sailing uses a fenced router: its own, or one that a port it names leads to. -/
def State.sailsFenced (s : State) (c ent : Nat) : Bool :=
  (List.range 5).any (fun o =>
    let src := sailSource ent o
    src != 0 && (s.bit F.CHN_RCFG.RFEN [c] || [o, src - 1].any (fun port => decide (port < 4) && (match s.neighbour c port with
      | some n => s.bit F.CHN_RCFG.RFEN [n]
      | none => false))))

/-- R450: the directory entry of a cluster keeps to the clusters and routers fenced for good: no sailing uses a fenced router,
and a cluster fenced for good has one END stroke and no sailing. -/
def State.detourOk (s : State) (img : Bytes) (i c : Nat) : Bool :=
  let d := dirEntry img i
  let w := leAt img (leAt d 0 4) 32
  (List.range (leAt d 12 2)).all (fun k => !s.sailsFenced c (leAt img (leAt d 8 4 + 16 * k) 16)) &&
    (!s.bit F.CLU_CSITE.PERM [c] || (leAt d 4 2 == 1 && leAt d 12 2 == 0 && strokeKind w == 1 && strokeCop w == 0x3F))

/-- R450: a rectangle of the partition holds a cluster fenced for good. -/
def State.rectFenced (s : State) (p : Nat) (e : Bytes) (off : Nat) : Bool :=
  (s.entryRect p e off).any (fun c => s.bit F.CLU_CSITE.PERM [c])

/-- R231: every cluster whose table is in fault records it in CHN_FAULT. -/
def State.recordTables (s : State) (p : Nat) (img : Bytes) : State :=
  let cs := s.dirClusters p
  (cs.zip (List.range cs.length)).foldl (fun a x => match s.tableFault p img x.2 x.1 with
    | some y => a.setFlds [x.1] [(F.CHN_FAULT.CODE, 0x24), (F.CHN_FAULT.PORT, y.2), (F.CHN_FAULT.ENT, y.1), (F.CHN_FAULT.SCY, 0)]
    | none => a) s

/-- Check 5: how it fails. -/
def State.progFault (s : State) (p : Nat) (m img : Bytes) : Option VEnd :=
  let all := s.dirClusters p
  if !s.imageOk p m img || !(all.zip (List.range all.length)).all (fun x => s.detourOk img x.2 x.1) then some (endStatus 5)
  else
    let cs := s.dirClusters p
    (cs.zip (List.range cs.length)).findSome? (fun x =>
      (s.tableFault p img x.2 x.1).map (fun y => ⟨5, x.1, 0x24, y.2, y.1, 0⟩))

/-! ### Checks 6 to 9 -/

/-- Check 6 (R290): every entry is legal, and no cluster's handle is listed twice. RELEASE ignores LEN and the load
fields. -/
def State.berthsOk (s : State) (p kind : Nat) (bl : List Bytes) : Bool :=
  let all := bl.flatMap (fun e => (s.entryRect p e 6).map (fun c => c * 128 + leAt e 0 1))
  bl.all (fun e => decide (leAt e 0 1 ≤ 127) && decide (leAt e 1 1 ≤ 2) && decide (leAt e 2 2 < 8) && zeroAt e 10 2 &&
    zeroAt e 28 4 && s.rectIn p e 6 && !s.rectFenced p e 6 && (kind == 3 || (decide (1 ≤ leAt e 4 2) && decide (leAt e 4 2 ≤ 4096)))) &&
    (nub all).length == all.length

/-- R295: the listed handle of a cluster is kept as it is. -/
def State.keeps (s : State) (p c : Nat) (e : Bytes) : Bool :=
  let h := leAt e 0 1
  s.resident c h && s.berthStore c h == leAt e 1 1 && s.fld F.CLU_BERTH.LEN [c, h] == leAt e 4 2 && leAt e 12 4 != 0 &&
    SMap.get 0 (s.front p).imgid h == leAt e 12 4

/-- Granules of a store (R183). -/
def storeGranules (st : Nat) : Nat := storeSize st / 64

/-- The lowest base where `len` granules are free of the ranges in use: 0, or just past one of them. -/
def lowestFit (used : List (Nat × Nat)) (size len : Nat) : Option Nat :=
  (sortBy id (0 :: used.map (·.2))).find? (fun b =>
    decide (b + len ≤ size) && used.all (fun u => decide (b + len ≤ u.1) || decide (u.2 ≤ b)))

/-- Ranges of a store that allocated handles of a cluster hold. -/
def State.usedRanges (s : State) (c st : Nat) (skip : Nat → Bool) : List (Nat × Nat) :=
  (List.range 128).filterMap (fun h =>
    if s.bit F.CLU_BERTH.VAL [c, h] && s.berthStore c h == st && !skip h then
      some (s.fld F.CLU_BERTH.BASE [c, h], s.fld F.CLU_BERTH.BASE [c, h] + s.fld F.CLU_BERTH.LEN [c, h])
    else none)

/-- The entries that list a cluster. -/
def State.listing (s : State) (p c : Nat) (bl : List Bytes) : List Bytes := bl.filter (fun e => (s.entryRect p e 6).contains c)

/-- Check 8 for one cluster: once every handle that is to be replaced is FREE and every zeroing has ended, the listed
berths fit one after another. -/
def State.fits (s : State) (p c : Nat) (bl : List Bytes) : Bool :=
  let mine := s.listing p c bl
  let fresh := mine.filter (fun e => !s.keeps p c e)
  let gone := fun (h : Nat) => s.bit F.CLU_BERTH.ZPND [c, h] || fresh.any (fun e => leAt e 0 1 == h)
  let start := (List.range 3).map (fun st => s.usedRanges c st gone)
  (fresh.foldl (fun (a : List (List (Nat × Nat)) × Bool) e =>
    let st := leAt e 1 1
    let n := leAt e 4 2
    match lowestFit (listGet [] a.1 st) (storeGranules st) n with
    | some b => (listMod a.1 st (fun u => u ++ [(b, b + n)]), a.2)
    | none => (a.1, false)) (start, true)).2

/-- Check 8. -/
def State.placeable (s : State) (p : Nat) (bl : List Bytes) : Bool := (s.part p).cls.all (fun c => s.fits p c bl)

/-- The word of CLU_GWCFG_g that a window entry gives, OPEN set (R291). -/
def winWord (e : Bytes) : Nat :=
  let cls := leAt e 2 1
  2 ^ 63 + bits cls 0 1 * 2 ^ 62 + bits cls 1 1 * 2 ^ 61 + bits cls 2 1 * 2 ^ 60 + bits cls 3 1 * 2 ^ 59 + leAt e 1 1 * 2 ^ 52 +
    leAt e 12 2 * 2 ^ 40 + leAt e 14 2 * 2 ^ 27 + leAt e 3 1 * 2 ^ 22 + leAt e 4 1 * 2 ^ 16 + leAt e 6 2

/-- STORE and LEN that a handle of a cluster will have once the listed berths are placed. -/
def State.willBe (s : State) (p c h : Nat) (bl : List Bytes) : Option (Nat × Nat) :=
  match (s.listing p c bl).find? (fun e => leAt e 0 1 == h) with
  | some e => some (leAt e 1 1, leAt e 4 2)
  | none => if s.resident c h then some (s.berthStore c h, s.fld F.CLU_BERTH.LEN [c, h]) else none

/-- Check 9 for one entry in one cluster: the window will open under R208, beside the windows that stay open and those of
earlier entries (`mine`: cluster, window, handle, offset, length). -/
def State.winFits (s : State) (p c : Nat) (e : Bytes) (bl : List Bytes) (mine : List (Nat × Nat × Nat × Nat × Nat)) : Bool :=
  let g := leAt e 0 1
  let h := leAt e 1 1
  let off := leAt e 12 2
  let len := leAt e 14 2
  let cls := bits (leAt e 2 1) 0 3
  match s.willBe p c h bl with
  | none => false
  | some (st, n) =>
    let stays := fun (i : Nat) => s.bit F.CLU_GWCFG.OPEN [c, i] &&
      !(s.listing p c bl).any (fun b => leAt b 0 1 == s.fld F.CLU_GWCFG.BERTH [c, i] && !s.keeps p c b)
    decide (off + len ≤ n) && (st != 2 || cls == 1) &&
      (List.range 32).all (fun i => !stays i || (i != g && (s.fld F.CLU_GWCFG.BERTH [c, i] != h ||
        decide (off + len ≤ s.fld F.CLU_GWCFG.OFF [c, i]) ||
        decide (s.fld F.CLU_GWCFG.OFF [c, i] + s.fld F.CLU_GWCFG.LEN [c, i] ≤ off)))) &&
      mine.all (fun x => x.1 != c || (x.2.1 != g && (x.2.2.1 != h || decide (off + len ≤ x.2.2.2.1) ||
        decide (x.2.2.2.1 + x.2.2.2.2 ≤ off))))

/-- Check 9 (R208, R291). -/
def State.winsOk (s : State) (p : Nat) (wl bl : List Bytes) : Bool :=
  (wl.foldl (fun (a : List (Nat × Nat × Nat × Nat × Nat) × Bool) e =>
    let cls := bits (leAt e 2 1) 0 3
    let form := decide (leAt e 0 1 ≤ 31) && decide (leAt e 1 1 ≤ 127) && decide (leAt e 2 1 < 16) && decide (leAt e 3 1 < 32) &&
      decide (leAt e 4 1 < 64) && zeroAt e 5 1 && decide (leAt e 16 4 < 2 ^ 20) && zeroAt e 20 12 && s.rectIn p e 8 && !s.rectFenced p e 8 &&
      decide (1 ≤ leAt e 14 2) && decide (leAt e 12 2 < 4096) && cls != 0 && (!bitAt cls 0 || cls == 1)
    if !a.2 || !form then (a.1, false)
    else (s.entryRect p e 8).foldl (fun a c =>
      if a.2 && s.winFits p c e bl a.1 then (a.1 ++ [(c, leAt e 0 1, leAt e 1 1, leAt e 12 2, leAt e 14 2)], true)
      else (a.1, false)) a) ([], true)).2

/-- Check 7 (R310): the listed streams can be bound. -/
def State.streamsOk (s : State) (p : Nat) (m : Bytes) (bl : List Bytes) (ix : List Nat) (es : List Bytes) : Bool :=
  let n := manNstrm m
  decide (1 ≤ n) && decide (n ≤ 16) && (nub ix).length == ix.length && ix.all (fun i => decide (i < 2 ^ 21)) &&
    es.all (fun e => streamPart e == p && streamState e == 1 && decide (streamPos e + manAdv m ≤ streamLimit e)) &&
    (s.part p).cls.all (fun c => (s.listing p c bl).any (fun e => leAt e 0 1 == manSph m && leAt e 1 1 == 1 &&
      decide (n ≤ leAt e 4 2)))

/-! ### Placement (R295) -/

/-- A load descriptor of the front end for a berth of a cluster (R292, R317). (log 52, DEDUCED) -/
def loadDesc (p gen c h img len : Nat) : Desc :=
  let b := [1, 1, 0, 1] ++ leBytes 4 0 ++ leBytes 8 img ++ leBytes 8 (c * 2 ^ 32 + h * 2 ^ 25) ++ leBytes 4 len ++
    List.replicate 32 0
  ⟨0, p, gen, 0, b ++ leBytes 4 (crc32 b), 0, some (c, h), 0xFF, 0, 0, false, none, 0, 0⟩

/-- A berth becomes RESIDENT (R195). -/
def State.nowResident (s : State) (c h : Nat) (e : Bytes) : State :=
  let s := s.setFlds [c, h] [(F.CLU_BERTH.PSN, 0), (F.CLU_BERTH.RES, 1)]
  if bitAt (leAt e 2 2) 2 && decide (leAt e 1 1 ≤ 1) then
    s.modClu c (fun k => { k with imgs := if k.imgs.contains h then k.imgs else k.imgs ++ [h] })
  else s

/-- R295: once every berth of entry `i` is placed and loaded, the partition records its IMGID for the handle. -/
def State.entryDone (s : State) (p i : Nat) : State :=
  let f := s.front p
  let e := listGet [] f.berths i
  if f.toPlace.any (fun x => x.2.2 == i) || f.loading.any (fun x => x.2.2 == i) then s
  else s.modFront p (fun f => { f with imgid := SMap.set 0 f.imgid (leAt e 0 1) (leAt e 12 4) })

/-- Allocate one listed berth in a cluster whose store clears nothing, where it fits. -/
def State.allocate (s : State) (p : Nat) (x : Nat × Nat × Nat) : State :=
  let c := x.1
  let h := x.2.1
  let e := listGet [] (s.front p).berths x.2.2
  let st := leAt e 1 1
  let n := leAt e 4 2
  match lowestFit (s.usedRanges c st (fun _ => false)) (storeGranules st) n with
  | none => s.refuseMan p (endStatus 8)
  | some b =>
    let gen := s.fld F.FE_PSTAT.GEN [p]
    let s := s.setFlds [c, h] [(F.CLU_BERTH.STORE, st), (F.CLU_BERTH.BASE, b), (F.CLU_BERTH.LEN, n), (F.CLU_BERTH.PART, p),
      (F.CLU_BERTH.GEN, gen), (F.CLU_BERTH.VAL, 1), (F.CLU_BERTH.STR, bits (leAt e 2 2) 1 1)]
    if bitAt (leAt e 2 2) 2 then
      let k := (findIdx (· == c) (s.entryRect p e 6)).getD 0
      let img := leAt e 16 8 + k * leAt e 24 4
      if img % 8 ≠ 0 then
        (((s.incFld F.FRY_CNT.FAIL [] 1).post 0x0502 0x04 p locNone 0x0100 0)).closeMan p (endStatus 0x0B)
      else s.modFront p (fun f => { f with loading := f.loading ++ [x], place := f.place ++ [loadDesc p gen c h img (64 * n)] })
    else (s.nowResident c h e).entryDone p x.2.2

/-- BERTH_PLACEMENT (R295): the listed berths that wait are placed in order, in each cluster once its zeroing has ended. -/
def State.placeBerths (s : State) (p : Nat) : State :=
  (s.front p).toPlace.foldl (fun a x =>
    if a.fld F.FE_PSTAT.STATE [p] = 4 ∧ (a.clu x.1).zr.isEmpty then
      (a.modFront p (fun f => { f with toPlace := f.toPlace.filter (· != x) })).allocate p x
    else a) s

/-- Release every listed handle that is not kept, and queue its placement (R295). -/
def State.beginPlacement (s : State) (p : Nat) : State :=
  let bl := (s.front p).berths
  let items := (bl.zip (List.range bl.length)).flatMap (fun x => (s.entryRect p x.1 6).map (fun c => (c, leAt x.1 0 1, x.2)))
  let fresh := items.filter (fun x => !s.keeps p x.1 (listGet [] bl x.2.2))
  let s := fresh.foldl (fun a x => (a.releaseBerth x.1 x.2.1).forgetImage p x.2.1) s
  (s.modFront p (fun f => { f with toPlace := fresh, placed := true })).placeBerths p

/-- R310: the streams of a voyage become ACTIVE. -/
def State.bindStreams (s : State) (p : Nat) (l : List (Nat × Bytes)) : State :=
  l.foldl (fun a x =>
    let e := streamMark x.2 2 (streamFlags x.2)
    ((a.unqueue x.1).streamPut x.1 e).modFront p (fun f => { f with streams := f.streams ++ [⟨x.1, streamPos e, e⟩] })) s

/-- Bytes of instruction stores, sailing tables and segment registers that the image of a voyage loads (R361). -/
def progBytes (img : Bytes) (n : Nat) : Nat :=
  (List.range n).foldl (fun a i =>
    let d := dirEntry img i
    a + 32 * leAt d 4 2 + 16 * leAt d 12 2 + 64) 0

/-- Checks 7 to 9 and, where they pass, the state LOAD: streams bound, berths released and placed. -/
def State.enterLoad (s : State) (p : Nat) (ix : List (Nat × Bytes)) : State :=
  let f := s.front p
  let m := f.man
  if manStrm m && !s.streamsOk p m f.berths (ix.map (·.1)) (ix.map (·.2)) then s.refuseMan p (endStatus 7)
  else if !s.placeable p f.berths then s.refuseMan p (endStatus 8)
  else if !s.winsOk p f.wins f.berths then s.refuseMan p (endStatus 9)
  else if manVoyage m && f.descs.any (fun d => leAt d 0 1 == 0 || decide (3 < leAt d 0 1) || !zeroAt d 2 6) then
    s.closeMan p (endStatus 0x0B)
  else
    let s := s.setPState p 4
    let s := if manStrm m then s.bindStreams p ix else s
    let left := if manVoyage m then progBytes f.image (f.w * f.h) else 0
    let s := s.modFront p (fun f => { f with gather := false, progLeft := left })
    s.beginPlacement p

/-! ### The checks -/

/-- The bytes of a fetch, or its fault. -/
def fetched (need : Bool) (va : Nat) (x : Fetched) : Bytes ⊕ (Nat × Nat × Nat × Nat) :=
  if !need then .inl []
  else match x with
    | .bytes b => .inl b
    | .chartFault c l a e => .inr (c.toNat, l.toNat, a.toNat, e.toNat)
    | .memErr => .inr (7, 7, va, 0)

/-- The fault of the first faulting fetch. -/
def firstFault (l : List (Bytes ⊕ (Nat × Nat × Nat × Nat))) : Option (Nat × Nat × Nat × Nat) :=
  l.findSome? (fun x => match x with | .inr f => some f | .inl _ => none)

/-- The bytes of a fetch. -/
def gotBytes (x : Bytes ⊕ (Nat × Nat × Nat × Nat)) : Bytes := match x with | .inl b => b | .inr _ => []

/-- R356: a rectangle is free. -/
def State.rectFree (s : State) (x0 y0 w h : Nat) : Bool :=
  let m := meshSize s.fuses.grade
  decide (x0 + w ≤ m.1) && decide (y0 + h ≤ m.2) && (rectClusters 0 0 x0 y0 w h).all (fun c =>
    !s.inPart c && !(s.clu c).leaving && (s.clu c).zr.isEmpty && !s.bit F.CLU_CSITE.PERM [c])

/-- R356: the first origin, in ascending y and then x, whose rectangle is free. -/
def State.findRect (s : State) (w h : Nat) : Option (Nat × Nat) :=
  let m := meshSize s.fuses.grade
  (List.range m.2).findSome? (fun y => ((List.range m.1).find? (fun x => s.rectFree x y w h)).map (·, y))

/-- R227: the ports of a cluster that face another router of its partition. -/
def State.innerPorts (s : State) (cls : List Nat) (c : Nat) : Nat :=
  (List.range 4).foldl (fun pen port => match s.neighbour c port with
    | some n => if cls.contains n then pen + 2 ^ (3 - port) else pen
    | none => pen) 0

/-- Clusters enter partition `p` (R353, R358). -/
def State.takeRect (s : State) (p x0 y0 w h : Nat) : State :=
  let cls := rectClusters 0 0 x0 y0 w h
  let gen := s.fld F.FE_PSTAT.GEN [p]
  let s := forClusters cls (fun c a => a.setFlds [c] [(F.CLU_STSTAT.CPART, p), (F.CLU_STSTAT.INP, 1), (F.CLU_STSTAT.CGEN, gen),
    (F.CHN_RCFG.PEN, a.innerPorts cls c)]) s
  (s.modPart p (fun q => { q with cls := cls })).modFront p (fun f => { f with x0 := x0, y0 := y0, w := w, h := h })

/-- R360: a privileged partition of a lower number waits for clusters, and has a rectangle to take first. -/
def State.claimBefore (s : State) (p : Nat) : Bool :=
  (List.range p).any (fun q => (s.front q).waiting && s.fld F.FE_PSTAT.STATE [q] == 3 &&
    (s.findRect (s.front q).w (s.front q).h).isSome)

/-- The front end claims a rectangle for a privileged partition; whether it has one then. -/
def State.claimRect (s : State) (p : Nat) : State × Bool :=
  let f := s.front p
  if !f.priv || !(s.part p).cls.isEmpty then (s, true)
  else
    match (if s.claimBefore p then none else s.findRect f.w f.h) with
    | some (x, y) => ((s.takeRect p x y f.w f.h).modFront p (fun f => { f with waiting := false }), true)
    | none => (s, false)

/-- R358: the claim before check 3; the first failed search of a manifest posts event 0x0108. -/
def State.claimFor (s : State) (p : Nat) : State × Bool :=
  let r := s.claimRect p
  if r.2 then r
  else if (s.front p).waiting then r
  else
    let s := s.modFront p (fun f => { f with waiting := true })
    (s.post 0x0108 0x02 p (s.fld F.FE_PSTAT.RING [p]) p (s.fld F.FE_PSTAT.SEQ [p]), false)

/-- Checks 3 to 6, and what follows (R294). -/
def State.checkLists (s : State) (p : Nat) (f : CheckFetch) : State :=
  let m := (s.front p).man
  let k := manKind m
  let voy := k == 1
  if voy && (leAt m 6 1 != (s.front p).w || leAt m 7 1 != (s.front p).h) then s.refuseMan p (endStatus 3)
  else if voy && (leAt m 0x50 2 != s.fld F.TDE_PRANGE.BASE [p] || decide (s.fld F.TDE_PRANGE.CNT [p] < leAt m 0x52 2)) then
    s.refuseMan p (endStatus 4)
  else
    let get := fun (need : Bool) (va len : Nat) (x : Fetched) => fetched need va (s.feFetch p va len x)
    let img := get voy (leAt m 0x10 8) (leAt m 0x18 4) f.image
    let bl := get (leAt m 0x1C 2 != 0) (leAt m 0x20 8) (32 * leAt m 0x1C 2) f.blist
    let sl := get (manStrm m && !manGather m) (leAt m 0x48 8) (4 * manNstrm m) f.slist
    let wl := get (k != 3 && leAt m 0x1E 2 != 0) (leAt m 0x28 8) (32 * leAt m 0x1E 2) f.wlist
    let dl := get (voy && leAt m 0x38 2 != 0) (leAt m 0x30 8) (16 * leAt m 0x38 2) f.dlist
    match firstFault [img, bl, sl, wl, dl] with
    | some (c, l, a, e) => s.parkFront p 1 c l a e (s.slotVa (s.fld F.FE_PSTAT.RING [p]) (s.fld F.FE_PSTAT.SEQ [p]))
    | none =>
      let image := if voy then slice (gotBytes img) 0 (leAt m 0x18 4) else []
      let berths := entries (gotBytes bl) 32 (leAt m 0x1C 2)
      match (if voy then s.progFault p m image else none) with
      | some e => (if e.fcode = 0x24 then s.recordTables p image else s).refuseMan p e
      | none =>
        if !s.berthsOk p k berths then s.refuseMan p (endStatus 6)
        else
          let s := s.modFront p (fun x => { x with
            image := image, berths := berths, wins := if k == 3 then [] else entries (gotBytes wl) 32 (leAt m 0x1E 2),
            descs := if voy then entries (gotBytes dl) 16 (leAt m 0x38 2) else [] })
          if k = 3 then s.setPState p 4
          else if manGather m then s.modFront p (fun x => { x with gather := true })
          else
            let ix := (List.range (if manStrm m then manNstrm m else 0)).map (fun i => leAt (gotBytes sl) (4 * i) 4)
            let r := (ix.zip (List.range ix.length)).foldl (fun (a : State × List (Nat × Bytes)) x =>
              let g := a.1.streamGet x.1 (listGet [] f.streams x.2)
              (g.1, a.2 ++ [(x.1, g.2)])) (s, [])
            r.1.enterLoad p r.2

/-- The manifest of partition `p` is checked in order (R294). (log 48, DEDUCED) -/
def State.checkMan (s : State) (p : Nat) (f : CheckFetch) : State :=
  let m := (s.front p).man
  if crc32 (slice m 0 0x7C) ≠ leAt m 0x7C 4 then s.refuseMan p (endStatus 1)
  else if !s.manFormat p m then s.refuseMan p (endStatus 2)
  else if manKind m = 0 then s.setPState p 4
  else
    let r := s.claimFor p
    if r.2 then r.1.checkLists p f else r.1

/-- MANIFEST_CHECK (R294). -/
def execManifestCheck (p : Fin 16) (f : CheckFetch) (s : State) : Res := onCore s fun s =>
  let k := s.front p.val
  if s.fld F.FE_PSTAT.STATE [p.val] = 3 ∧ k.parked.isNone ∧ !k.gather then (s.checkMan p.val f).cohPump else s

/-- PRIVILEGED_CLAIM (R358): a privileged partition that waits in CHECK claims a rectangle. -/
def execPrivilegedClaim (p : Fin 16) (s : State) : Res := onCore s fun s =>
  if s.fld F.FE_PSTAT.STATE [p.val] = 3 ∧ (s.front p.val).waiting then (s.claimRect p.val).1 else s

/-! ### Berths that finish -/

/-- ZEROING_COMPLETE (R195, R295): berths become FREE, and those that waited for them are placed. -/
def execZeroingComplete (c : Nat) (s : State) : Res := onCore s fun s =>
  let s := s.zeroingDone c
  if s.inPart c then (s.placeBerths (s.partOf c)).cohPump else s

/-- A load of a berth is still under way. -/
def State.loadLeft (s : State) (p c h : Nat) : Bool :=
  (s.front p).place.any (fun d => d.load == some (c, h)) || s.descs.any (fun d => d.part == p && d.load == some (c, h))

/-- BERTH_LOAD_COMPLETE (R195, R295). (log 1, DESIGN CHOICE) -/
def execBerthLoadComplete (c : Nat) (h : Fin 128) (s : State) : Res := onCore s fun s =>
  let p := s.partOf c
  let h := h.val
  match (s.front p).loading.find? (fun x => x.1 == c && x.2.1 == h) with
  | none => s
  | some x =>
    if !s.inPart c || s.loadLeft p c h || (s.fld F.FE_PSTAT.STATE [p] != 4 && s.fld F.FLT_PREC.STATE [p] == 0) then s
    else
      let e := listGet [] (s.front p).berths x.2.2
      let s := s.modFront p (fun f => { f with loading := f.loading.filter (· != x) })
      (((s.nowResident c h e).entryDone p x.2.2).placeBerths p).cohPump

/-! ### Gathering (R366-R368) -/

/-- BATCH_CLOSE (R367, R368): with enough eligible streams queued, or one that has waited long enough (`waited` gives the µs
in the queue, by place), the batch closes; the bound indices are written to SLIST. (log 78, DESIGN CHOICE) -/
def execBatchClose (p : Fin 16) (waited : List Nat) (s : State) : Res := onCore s fun s =>
  let p := p.val
  let f := s.front p
  let m := f.man
  if s.fld F.FE_PSTAT.STATE [p] ≠ 3 ∨ !f.gather then s
  else
    let n := manNstrm m
    let ok := fun (x : (Nat × Bytes) × Nat) => decide (streamPos x.1.2 + manAdv m ≤ streamLimit x.1.2)
    let q := (f.gq.zip ((waited ++ List.replicate f.gq.length 0).take f.gq.length)).filter ok
    let gwait := match SMap.find s.od ((0x3110 + p) * 256 + 1) with | some b => leNat b | none => 160
    let due := q.any (fun x => decide (gwait * (16 - streamPrio x.1.2) ≤ 16 * x.2))
    let s := s.modFront p (fun f => { f with gq := q.map (·.1) })
    if (n ≤ q.length ∧ 0 < n) ∨ due then
      -- descending PRIO, then the order of the queue, which streams that entered it in one ccy did by index
      let order := (sortBy (fun x => 255 - streamPrio x.1.2) q).map (·.1)
      let take := order.take n
      let slots := take.map (·.1) ++ (if take.length < n then [0xFFFFFFFF] else [])
      let s := s.emit (.va p true (leAt m 0x48 8) (4 * slots.length) (slots.flatMap (leBytes 4)))
      (s.enterLoad p take).cohPump
    else s

end Sys2Proof.Machine
end

