-- ==== Sys2Proof/Machine/Voyage.lean ====
section
/-! DEFINITION. A voyage from LOAD to its record (R25, R26, R147, R207, R245, R292, R297-R305, R310, R364), and the
resolution of front-end fetches (R340). -/

namespace Sys2Proof.Machine

/-! ### Loading (R297) -/

/-- Load the program of one cluster: strokes, sailing table, segments, gateways and port enables. -/
def State.loadCluster (s : State) (p : Nat) (img : Bytes) (i c : Nat) : State :=
  let d := dirEntry img i
  let n := 32 * leAt d 4 2
  let table := (List.range (leAt d 12 2)).foldl (fun (m : SMap (BitVec 128)) k =>
    SMap.set 0 m k (BitVec.ofNat 128 (leAt img (leAt d 8 4 + 16 * k) 16))) []
  let pen := s.penOf p img c
  let s := s.modClu c (fun k =>
    { k.eccClear 4 0 n with ins := k.ins.store 0 (slice img (leAt d 0 4) n), sail := table })
  let s := (List.range 8).foldl (fun a k =>
    a.setWord .CHN_SEG [c, k] (definedBits .CHN_SEG (leAt img (leAt d 16 4 + 8 * k) 8))) s
  let s := (List.range 2).foldl (fun a g =>
    match a.gwPort c g, a.binding p img c g with
    | some _, some e => a.setFlds [c, g] [(F.CHN_GWCFG.MODE, leAt e 3 1), (F.CHN_GWCFG.LAND, leAt e 4 1),
        (F.CHN_GWCFG.SLOT, leAt e 5 1), (F.CHN_GWCFG.FTALLY, leAt e 6 2)]
    | some _, none => a.setWord .CHN_GWCFG [c, g] 0
    | none, _ => a) s
  (s.setFld F.CHN_RCFG.PEN [c] pen).setFld F.CLU_PSTAT.STATE [c] 1

/-- The program of every cluster. -/
def State.loadProgram (s : State) (p : Nat) : State :=
  let cs := s.dirClusters p
  (cs.zip (List.range cs.length)).foldl (fun a x => a.loadCluster p (s.front p).image x.2 x.1) s

/-- R310: the parameter block of a bound stream. -/
def paramBlock (m : Bytes) (slot n : Nat) (b : BStream) : Bytes :=
  leBytes 4 b.index ++ leBytes 4 b.pos ++ leBytes 1 slot ++ leBytes 1 (streamPrio b.ent) ++ leBytes 2 n ++
    leBytes 4 (manAdv m) ++ List.replicate 48 0

/-- R310: the blocks go into the granules of berth SPH in every cluster. -/
def State.writeParams (s : State) (p : Nat) : State :=
  let f := s.front p
  let bs := f.streams
  let blk := (bs.zip (List.range bs.length)).flatMap (fun x => paramBlock f.man x.2 bs.length x.1)
  if bs.isEmpty then s
  else forClusters (s.part p).cls (fun c a =>
    let h := manSph f.man
    let st := a.berthStore c h
    let at_ := a.berthBase c h
    a.modClu c (fun k => (k.eccClear st at_ (at_ + blk.length)).setStore st ((k.store st).store at_ blk))) s

/-- A window closes; GWO follows the windows that stay open. -/
def State.closeWindow (s : State) (c g : Nat) : State :=
  let h := s.fld F.CLU_GWCFG.BERTH [c, g]
  let s := s.setFld F.CLU_GWCFG.OPEN [c, g] 0
  if (List.range 32).any (fun i => s.bit F.CLU_GWCFG.OPEN [c, i] && s.fld F.CLU_GWCFG.BERTH [c, i] == h) then s
  else if s.bit F.CLU_BERTH.GWO [c, h] then s.setFld F.CLU_BERTH.GWO [c, h] 0 else s

/-- R207: the windows that the front end opened for partition `p` close. -/
def State.closeOpened (s : State) (p : Nat) : State :=
  let l := (s.front p).opened
  (l.foldl (fun a x => if a.bit F.CLU_GWCFG.OPEN [x.1, x.2] then a.closeWindow x.1 x.2 else a) s).modFront p
    (fun f => { f with opened := [] })

/-- R291: open one window in one cluster; false where R208 refuses it. -/
def State.openWindow (s : State) (p c : Nat) (e : Bytes) : State × Bool :=
  let g := leAt e 0 1
  let w := winWord e
  if s.bit F.CLU_GWCFG.OPEN [c, g] || s.openRefused c g w then (s, false)
  else
    let s := (s.setWord .CLU_GWCFG [c, g] w).setFld F.CLU_BERTH.GWO [c, bits w 52 7] 1
    let s := s.setFlds [c, g] [(F.CLU_GWCRD.CRINIT, leAt e 16 4), (F.CLU_GWCRD.CRD, leAt e 16 4), (F.CLU_GWCRD.ACPT, 0)]
    (s.modFront p (fun f => { f with opened := f.opened ++ [(c, g)] }), true)

/-- Every window of the list opens, or none does. -/
def State.openWindows (s : State) (p : Nat) : State × Bool :=
  let r := (s.front p).wins.foldl (fun (a : State × Bool) e =>
    (s.entryRect p e 8).foldl (fun (a : State × Bool) c => if a.2 then a.1.openWindow p c e else a) a) (s, true)
  if r.2 then r else (r.1.closeOpened p, false)

/-- The descriptors of a stage of the manifest's list, to be fetched. -/
def Fe.stage (f : Fe) (k : Nat) : List (Nat × Nat × Nat) :=
  (f.descs.filter (fun d => leAt d 0 1 == k)).map (fun d => (k, leAt d 1 1, leAt d 8 8))

/-- Loads and PRE descriptors of partition `p` that have not ended. -/
def State.preLeft (s : State) (p : Nat) : Bool :=
  let f := s.front p
  f.fetch.any (fun x => x.1 == 1) || !f.place.isEmpty || s.descs.any (fun d => d.part == p && decide (d.stage ≤ 1))

/-- R361: the program draws its bytes from the partition's bucket, as far as it reaches. -/
def State.payLoad (s : State) (p : Nat) : State :=
  let n := min (s.front p).progLeft (s.bucketBytes p)
  if n = 0 then s
  else
    (s.takeBytes p n).modFront p (fun f => { f with progLeft := f.progLeft - n })

/-- The voyage is READY once its PRE descriptors have ended (R298). -/
def State.readyIf (s : State) (p : Nat) : State :=
  if s.preLeft p then s
  else
    let held := match (s.part p).cls with | c :: _ => s.fld F.CHN_HOLDT.TOTAL [c] | [] => 0
    (s.modFront p (fun f => { f with energy0 := s.fld F.PWR_PENERGY.E [p], holds0 := held, ready := true })).setPState p 5

/-- A voyage in LOAD whose berths are resident: the program is loaded, windows open, and PRE descriptors are issued. -/
def State.loadVoyage (s : State) (p : Nat) : State :=
  if (s.front p).opening then s.readyIf p
  else
    let s := s.payLoad p
    if (s.front p).progLeft ≠ 0 then s
    else
      let s := (s.loadProgram p).writeParams p
      let r := s.openWindows p
      if r.2 then (r.1.modFront p (fun f => { f with opening := true, fetch := f.stage 1 })).readyIf p
      else r.1.refuseMan p (endStatus 9)

/-- RELEASE (R289, R296): the listed handles are released. -/
def State.releaseListed (s : State) (p : Nat) : State :=
  (s.front p).berths.foldl (fun a e =>
    (s.entryRect p e 6).foldl (fun a c => a.releaseBerth c (leAt e 0 1)) a) s

/-- LOAD_COMPLETE (R298). -/
def execLoadComplete (p : Fin 16) (s : State) : Res := onCore s fun s =>
  let p := p.val
  let f := s.front p
  if s.fld F.FE_PSTAT.STATE [p] ≠ 4 ∨ !f.toPlace.isEmpty ∨ !f.loading.isEmpty then s
  else
    match manKind f.man with
    | 1 => (s.loadVoyage p).cohPump
    | 3 => ((s.releaseListed p).closeMan p (endStatus 0)).cohPump
    | _ => (s.closeMan p (endStatus 0)).cohPump

/-! ### Start (R26, R147, R299) -/

/-- R299: the SR seed of a voyage. -/
def seedOf (f : Fe) : Nat :=
  let seed := leAt f.man 0x40 8
  match f.streams with
  | b :: _ => Nat.xor (Nat.xor seed (b.index * 2 ^ 24)) b.pos
  | [] => seed

/-- Flag words and their snapshots. -/
def isFlagReg (c a : Nat) : Bool :=
  let b := 0x02000000 + c * 0x4000
  decide (b + 0x1000 ≤ a) && decide (a < b + 0x2000) && ((a - b) % 0x40 == 0 || (a - b) % 0x40 == 8)

/-- PILOT_START (R147): one pilot and its cluster at the start of a voyage. -/
def State.pilotStart (s : State) (c entry seed : Nat) : State :=
  let s := s.restoreRegs c []
  let s : State := { s with regs := s.regs.filter (fun e => !isFlagReg c e.1) }
  let s := s.setFlds [c] [(F.CLU_PSTAT.ENTRY, entry), (F.CLU_PSTAT.PC, entry), (F.CLU_PSTAT.STATE, 2), (F.CLU_STSTAT.SHA, 0), (F.CLU_STSTAT.RST, 0)]
  let s := (s.setWord .CLU_PSEED [c] seed).setFld F.CLU_PSHDW.DIRTY [c] 0
  s.modClu c (fun k =>
    { k with cells := idleCells k.cells, blocks := [], slots := [], blanes := [], fetches := [], fbanks := [], pend := [],
             look := [], dec := Dec.start entry, snap := none, dirty := [], legNow := none, tideNow := false,
             tideList := none, gwOk := [], links := [] })

/-- The partition's pilots begin on one ccy. -/
def State.startVoyage (s : State) (p : Nat) : State :=
  let f := s.front p
  let cs := s.dirClusters p
  let s := (cs.zip (List.range cs.length)).foldl (fun a x => a.pilotStart x.1 (leAt (dirEntry f.image x.2) 6 2) (seedOf f)) s
  let s := s.modPart p (fun q =>
    { q with hold := List.replicate 13 ⟨0, false, false⟩, scyc := 0, pccy := 0, ended := none, stopAt := none, tideAt := none, live := true,
             fin := none, rems := [], recov := none, badPorts := [], newBad := [], selfq := [], joinAt := none, rampJ := none })
  let s := (s.setWord .FLT_PREC [p] 0).setFld F.TDE_PTIDE.NTIDE [p] 0
  let s := s.modFront p (fun f => { f with legs := [], fetch := f.fetch ++ f.stage 2 })
  s.setPState p 6

/-- The mark of the join at the start of a voyage (R245). -/
abbrev startJoin : Nat := 2 ^ 40

/-- R245: the start of a through-sailing partition is a join. -/
def State.startJoined (s : State) (p : Nat) : State × Bool :=
  if (s.members p).isEmpty then (s, true)
  else
    let s :=
      if (s.part p).joinAt = some startJoin then s
      else (s.modPart p (fun q => { q with joinAt := some startJoin, joinsSent := q.joinsSent + 1 })).sendCtl p none
        8 0 none
    (s, s.joinMet p)

/-- VOYAGE_START (R26, R299): a READY partition starts, outside the span of a tide. -/
def execVoyageStart (p : Fin 16) (s : State) : Res := onCore s fun s =>
  let p := p.val
  if s.fld F.FE_PSTAT.STATE [p] = 5 ∧ s.fld F.TDE_TSTAT.STATE [] = 0 ∧ !s.droopHolds p then
    let r := s.startJoined p
    if r.2 then
      let s : State := { r.1 with pow := { r.1.pow with
        delay := SMap.set 0 r.1.pow.delay p 0, delayLeft := SMap.set 0 r.1.pow.delayLeft p 0 } }
      (s.startVoyage p).cohPump
    else r.1
  else s

/-! ### Descriptors of the manifest's list (R292, R320) -/

/-- DESCRIPTOR_FETCH (R320): the next descriptor is fetched and checked. (log 48, DEDUCED) -/
def execDescriptorFetch (p : Fin 16) (data : Fetched) (s : State) : Res := onCore s fun s =>
  let p := p.val
  let f := s.front p
  let st := s.fld F.FE_PSTAT.STATE [p]
  match f.fetch with
  | [] => s
  | (stage, eng, dva) :: r =>
    if f.parked.isSome || (st != 4 && st != 6) then s
    else
      let d : Desc := ⟨0, p, s.fld F.FE_PSTAT.GEN [p], dva, [], stage, none, eng, 0, 0, false, none, 0, 0⟩
      let done := s.modFront p (fun f => { f with fetch := r })
      match s.feFetch p dva 64 data with
      | .chartFault code level addr entry => s.parkFront p 2 code.toNat level.toNat addr.toNat entry.toNat dva
      | .memErr => (done.descFailed d locNone 5 0).cohPump
      | .bytes b =>
        let d : Desc := { d with body := slice b 0 64 }
        if dva % 64 = 0 ∧ done.descOk d then done.modFront p (fun f => { f with place := f.place ++ [d] })
        else
          -- R328: one that fails writes its status block all the same
          let done := if bitAt d.flags 2 && d.doneva % 16 == 0 then done.emit (.va p true d.doneva 16 (done.statusBlock 1 0 0)) else done
          (done.descFailed d locNone 1 0).cohPump

/-! ### The end of a voyage (R25, R303-R305, R364) -/

/-- Every descriptor of a partition leaves the engines and the front end; pieces already issued run out. -/
def State.dropDescs (s : State) (p : Nat) : State :=
  let s := engines.foldl (fun a e =>
    let k := a.eng e
    if k.all.any (fun d => d.part == p) then
      a.setEng e ((k.all.filter (fun d => d.part == p)).foldl (fun k d => k.remove d.uid) k)
    else a) s
  let s : State := { s with walks := s.walks.filter (fun w => w.part != p) }
  s.modFront p (fun f => { f with fetch := [], place := [] })

/-- Every pilot has ended, and nothing of the voyage is under way. -/
def State.allEnded (s : State) (p : Nat) : Bool :=
  let q := s.part p
  q.live && s.fld F.FLT_PREC.STATE [p] == 0 && q.stopAt.isNone && q.selfq.isEmpty &&
    q.cls.all (fun c => s.pilot c == 5 && (s.clu c).look.isEmpty && (s.clu c).pend.isEmpty) &&
    (s.front p).fetch.isEmpty && (s.front p).place.isEmpty && !s.descs.any (fun d => d.part == p)

/-- No piece of the partition is in flight. -/
def State.noFlight (s : State) (p : Nat) : Bool := engines.all (fun e => !(s.eng e).fly.any (fun f => f.part == p))

/-- OR of bits 9:0 of every flag word of the partition (R303). -/
def State.cflags (s : State) (p : Nat) : Nat :=
  (s.part p).cls.foldl (fun a c => (List.range 64).foldl (fun a n => Nat.lor a (s.word .CLU_CFLAG [c, n] % 1024)) a) 0

/-- R364: mean of a list, rounded down. -/
def meanOf (l : List Nat) : Nat := if l.isEmpty then 0 else l.foldl (· + ·) 0 / l.length

/-- R364: the differences from each figure to the one before it, newest first. -/
def stepsOf : List Nat → List Nat
  | a :: b :: r => (a - b) :: stepsOf (b :: r)
  | _ => []

/-- R364: residency and the figures of the last legs. -/
def State.legFigures (s : State) (p : Nat) : State :=
  let f := s.front p
  let size := fun (e : Bytes) => 64 * leAt e 4 2 * (leAt e 8 1 * leAt e 9 1)
  let r := (f.berths.filter (fun e => leAt e 1 1 == 0 && !bitAt (leAt e 2 2) 1)).foldl (fun a e => a + size e) 0
  let str := f.berths.any (fun e => bitAt (leAt e 2 2) 1)
  let held := match (s.part p).cls with
    | c :: _ => s.fld F.CHN_HOLDC_0.MISS [c] + s.fld F.CHN_HOLDC_1.DRY [c]
    | [] => 0
  -- the last 16 legs that another LEG stroke followed
  let done := (f.legs.drop 1).take 16
  let legb := meanOf (done.map (fun x => x.2.1))
  let legt := meanOf (stepsOf ((f.legs.take 17).map (fun x => x.1)))
  let missl := meanOf (stepsOf (held :: (f.legs.take 16).map (fun x => x.2.2)))
  let rate := s.fld F.FRY_PRATE.RATE [p] * 64 * s.fld F.FRY_SCALE.SCALE [] * 2400000
  let need := if rate = 0 then 0 else cdiv (legb * (65536 * 1024 * s.fld F.CLK_CCLK.CUR [])) rate
  let resid := if str && decide (0 < r + f.strBytes) then 65536 * r / (r + f.strBytes) else 65536
  s.modFront p (fun f => { f with resid := resid, figs := [legb, legt, if str then need - legt else 0, missl] })

/-- The completion record (R303, R304) of a manifest that ended as `e` says. -/
def State.recordBytes (s : State) (p : Nat) (e : VEnd) (ran : Bool) : Bytes :=
  let f := s.front p
  let held := match (s.part p).cls with | c :: _ => s.fld F.CHN_HOLDT.TOTAL [c] | [] => 0
  let z := fun (n : Nat) => if ran then n else 0
  let cap := fun (w n : Nat) => leBytes w (min n (2 ^ (8 * w) - 1))
  leBytes 4 (s.fld F.FE_PSTAT.SEQ [p]) ++ leBytes 1 e.status ++ leBytes 1 (manKind f.man) ++ leBytes 2 0 ++
    leBytes 8 (manTag f.man) ++ cap 2 f.seacc ++ cap 2 f.seref ++ leBytes 4 e.clidx ++ leBytes 1 e.fcode ++
    leBytes 1 e.ffld ++ leBytes 2 e.faddr ++ leBytes 4 e.fscy ++ leBytes 8 (z (s.part p).voyageCycles) ++
    cap 4 (z (held - f.holds0)) ++ cap 2 (z f.nrep) ++ leBytes 2 0 ++ leBytes 4 (z (s.fld F.TDE_PTIDE.NTIDE [p])) ++
    cap 4 (if f.ready then (f.energy1 - f.energy0) / 1000 else 0) ++ leBytes 2 (z (s.cflags p)) ++ leBytes 2 0 ++
    leBytes 4 s.period

/-- Package virtual address of the completion record of the current manifest. -/
def State.recordVa (s : State) (p : Nat) : Nat :=
  let r := s.fld F.FE_PSTAT.RING [p]
  s.fld F.FE_RING_CPL.BASE [r] * 4096 + 64 * (s.fld F.FE_PSTAT.SEQ [p] % s.ringSize r)

/-- The manifest in CLOSE has ended: its streams are updated (R310), and the figures of its voyage taken. -/
def State.endManifest (s : State) (p : Nat) (e : VEnd) (ran : Bool) : State :=
  let s := if ran then s.legFigures p else s
  let n := (s.front p).streams.length
  let s := if ran then s.modFront p (fun f => { f with gbatch := (n :: f.gbatch).take 64 }) else s
  (s.releaseStreams p (manAdv (s.front p).man) (if e.status = 0 then 0 else 1)).modFront p (fun f => { f with closing := some (e, ran) })

/-- R305: the record is written once every stream-entry update has been acknowledged. -/
def State.writeRecord (s : State) (p : Nat) : State :=
  match (s.front p).closing with
  | some (e, ran) =>
    if s.seOut.any (fun x => x.2 == p) then s
    else
      let b := s.recordBytes p e ran
      let s := (s.closeOpened p).emit (.va p true (s.recordVa p) 64 b)
      let s := forClusters (s.part p).cls (fun c a => if a.pilot c = 0 then a else a.setFld F.CLU_PSTAT.STATE [c] 0) s
      let s := s.modPart p (fun q => { q with fin := none })
      s.modFront p (fun f => { f with record := some b, fail := none, closing := none })
  | none => s

/-- R25, R81, R255: a voyage whose pilots have all ended is over: cells are discarded and reservations return to 0. -/
def State.endVoyage (s : State) (p : Nat) : State :=
  let s := forClusters (s.part p).cls (fun c a =>
    let a := a.modClu c (fun k => { k with cells := idleCells k.cells, blocks := [] })
    a.setFld F.CLU_STSTAT.SHA [c] 0) s
  let s := (s.settleTallies p).clearPend p
  (s.modPart p (fun q => { q with live := false, tideAt := none })).takeWaits

/-- VOYAGE_COMPLETE (R25, R298, R303): the record of a voyage that has ended, or of a manifest in CLOSE. One that ended in
error first lets go of its descriptors, and waits for the pieces in flight. -/
def execVoyageComplete (p : Fin 16) (s : State) : Res := onCore s fun s =>
  let p := p.val
  let st := s.fld F.FE_PSTAT.STATE [p]
  if st = 6 then
    if s.allEnded p then ((((s.endVoyage p).toClose p).endManifest p (endStatus 0) true).writeRecord p).cohPump else s
  else if st = 7 ∧ (s.front p).record.isNone then
    if (s.front p).closing.isSome then (s.writeRecord p).cohPump
    else
      let s := (s.dropDescs p).takeWaits
      if !s.noFlight p then s
      else
        match (s.part p).fin, (s.front p).fail with
        | some e, _ => ((s.endManifest p e true).writeRecord p).cohPump
        | none, some e => ((s.endManifest p e false).writeRecord p).cohPump
        | none, none => s
  else s

/-- R296: the handles that a voyage listed without KEEP are released. -/
def State.releaseUnkept (s : State) (p : Nat) : State :=
  let f := s.front p
  if f.placed && manVoyage f.man then
    (f.berths.filter (fun e => !bitAt (leAt e 2 2) 0)).foldl (fun a e =>
      (s.entryRect p e 6).foldl (fun a c => a.releaseBerth c (leAt e 0 1)) a) s
  else s

/-- RECORD_DELIVERED (R296, R305): the record's write is acknowledged: DONE passes its count. -/
def execRecordDelivered (p : Fin 16) (s : State) : Res := onCore s fun s =>
  let p := p.val
  match (s.front p).record with
  | none => s
  | some b =>
    let r := s.fld F.FE_PSTAT.RING [p]
    let s := s.setFld F.FE_RING_IDX.DONE [r] ((s.fld F.FE_PSTAT.SEQ [p] + 1) % 2 ^ 32)
    let s := (s.modLine (64 + r) (fun x =>
      { x with data := overwrite (overwrite x.data 0x0D (slice b 4 1)) 0x18 (slice b 8 8) })).touch (64 + r)
    let s := s.releaseUnkept p
    let voy := manVoyage (s.front p).man
    let s := s.modFront p (fun f => { f with record := none, nvoy := f.nvoy + b2n voy, ready := false })
    (s.setPState p 1).cohPump

/-! ### Self-enqueue (R301, R302) -/

/-- The cause for which a SELFENQ is refused (R302): 1 bound, 2 depth, 3 no ring, 4 full. -/
def State.selfRefused (s : State) (p : Nat) : Option Nat :=
  let f := s.front p
  let bound := min (leAt f.man 0x3A 1) (s.fld F.FE_PCFG.SEMAX [p])
  if bound ≤ f.seacc then some 1
  else if s.fld F.FE_PCFG.SEDEPTH [p] < leAt f.man 4 2 + 1 then some 2
  else match s.selfRing p with
    | none => some 3
    | some r => if s.ringSize r ≤ sub32 (s.fld F.FE_RING_STL.STAIL [r]) (s.fld F.FE_RING_STL.ACK [r]) then some 4 else none

/-- R301: the image with its DEPTH and CHK set, where its CHK is correct. -/
def selfImage (img : Bytes) (depth : Nat) : Bytes :=
  if crc32 (slice img 0 0x7C) = leAt img 0x7C 4 then
    let b := overwrite img 4 (leBytes 2 (depth + 1))
    overwrite b 0x7C (leBytes 4 (crc32 (slice b 0 0x7C)))
  else img

/-- SELFENQ_COPY (R301, R302): the oldest SELFENQ not yet copied enters the self ring, or is refused and counted. -/
def execSelfenqCopy (p : Fin 16) (s : State) : Res := onCore s fun s =>
  let p := p.val
  match (s.part p).selfq with
  | [] => s
  | (_, _, c, h, off) :: rest =>
    let s := s.modPart p (fun q => { q with selfq := rest })
    match s.selfRefused p, s.selfRing p with
    | none, some r =>
      let img := ((s.clu c).store (s.berthStore c h)).bytes (s.berthBase c h + off) 128
      let tail := s.fld F.FE_RING_STL.STAIL [r]
      let s := s.emit (.va p true (s.slotVa r tail) 128 (selfImage img (leAt (s.front p).man 4 2)))
      let s := (s.setFld F.FE_RING_STL.STAIL [r] ((tail + 1) % 2 ^ 32)).touch (64 + r)
      (s.modFront p (fun f => { f with seacc := f.seacc + 1 })).cohPump
    | cause, ring =>
      let s := (s.modFront p (fun f => { f with seref := f.seref + 1 })).incFld F.FE_ERRCNT.SEREF [] 1
      s.postOnce (0x0103 * 2 ^ 16 + p) 0x0103 0x02 p (ring.getD locNone) (s.front p).seref (cause.getD 3)

/-! ### Resolution of a front-end fetch (R340) -/

/-- The partition whose front-end fetch is parked: the lowest. -/
def State.parkedFront (s : State) : Option Nat := (List.range 16).find? (fun p => (s.front p).parked.isSome)

/-- FRY_RESCMD for ENG 0x40: RETRY fetches again; ABORT ends the manifest with STATUS 0x0A. -/
def State.resFront (s : State) (q : Requester) (op slot : Nat) : State :=
  match (if slot = 0 then s.parkedFront else none) with
  | none => (s.setFld F.FRY_RESCMD.RES [] (s.goneRes 0x40 slot)).status stOk
  | some p =>
    if !isFw q && !(s.rightsOf q).ofPart p then (s.setFld F.FRY_RESCMD.RES [] 3).deny q (regAddr .FRY_RESCMD [])
    else
      let s :=
        if op = 1 then s.modFront p (fun f => { f with parked := none })
        else if (s.part p).live then (s.modFront p (fun f => { f with parked := none })).stopVoyage p (endStatus 0x0A)
        else s.closeMan p (endStatus 0x0A)
      ((s.setFld F.FRY_RESCMD.RES [] 0).status stOk).cohPump

/-- A command of FRY_RESCMD (R340): OP 1 RETRY, 2 ABORT. -/
def State.rescmd (s : State) (q : Requester) (op eng slot : Nat) : State :=
  let s := s.setFlds [] [(F.FRY_RESCMD.OP, op), (F.FRY_RESCMD.ENG, eng), (F.FRY_RESCMD.SLOT, slot)]
  let s := if eng = 0x40 then s.resFront q op slot else s.resEngine q op eng slot
  s.setFld F.FRY_RESCMD.OP [] 0

/-- RESCMD_RETRY. -/
def execRescmdRetry (q : Requester) (eng : BitVec 7) (slot : Fin 8) (s : State) : Res :=
  onCore s (fun s => s.rescmd q 1 eng.toNat slot.val)

/-- RESCMD_ABORT. -/
def execRescmdAbort (q : Requester) (eng : BitVec 7) (slot : Fin 8) (s : State) : Res :=
  onCore s (fun s => s.rescmd q 2 eng.toNat slot.val)

end Sys2Proof.Machine
end

