-- ==== Sys2Proof/Machine/Partition.lean ====
section
/-! DEFINITION. Partition commands (R300, R313), the drain of a generation (R343, R344), and the creation and dissolution of
partitions (R349-R360). -/

namespace Sys2Proof.Machine

/-! ### Instance reset (R313) -/

/-- R260: the tallies of a partition's range return to 0; the changes not yet applied are lost. -/
def State.resetTallies (s : State) (p : Nat) : State :=
  let s : State := { s with tnet := s.tnet.filter (fun e => s.fld F.TDE_TCFG.OWNER [e.1] != p) }
  (s.tallyRange p).foldl (fun a t =>
    (((a.setWord .TDE_TAL [t] 0).setWord .TDE_TCNT [t] 0).setWord .TDE_TLEG [t] 0).setFld F.TDE_TCFG.START [t] 0) s

/-- Step 5 of R313 in every cluster: pointers, windows and berths. -/
def State.clearClusters (s : State) (p : Nat) : State :=
  let s := forClusters (s.part p).cls (fun c a =>
    let a := (a.setWord .CHN_GWPTR [c, 0] 0).setWord .CHN_GWPTR [c, 1] 0
    let a := a.closeWindows c (fun _ => true)
    (List.range 128).foldl (fun a h => a.releaseBerth c h) a) s
  s.modFront p (fun f => { f with opened := [], imgid := [] })

/-- Step 2 of R313: the generation rises. -/
def State.raiseGen (s : State) (p : Nat) : State :=
  let g := (s.fld F.FE_PSTAT.GEN [p] + 1) % 2 ^ 16
  let s := s.setFld F.FE_PSTAT.GEN [p] g
  forClusters (s.part p).cls (fun c a => a.setFld F.CLU_STSTAT.CGEN [c] g) s

/-- Step 3 of R313: every ring of the partition is disabled. -/
def State.ringsOff (s : State) (p : Nat) : State :=
  ((List.range 64).filter (fun r => s.fld F.FE_RING_CFG.PART [r] == p && s.ringState r != 0)).foldl (fun a r =>
    let a := a.setFld F.FE_RING_CFG.EN [r] 0
    State.touch { a with ringErr := a.ringErr.filter (· != r) } (64 + r)) s

/-- R313, steps 2 to 4: the partition has stopped; its generation rises, and the old one drains. -/
def State.resetGo (s : State) (p : Nat) : State :=
  let old := s.fld F.FE_PSTAT.GEN [p]
  let s := s.modPart p (fun q => { q with fin := none, selfq := [] })
  let s := forClusters (s.part p).cls (fun c a => if a.pilot c = 0 then a else a.setFld F.CLU_PSTAT.STATE [c] 0) s
  let s := (s.raiseGen p).ringsOff p
  let s : State := { s with gone := s.gone ++ (s.parksOf p).filter (fun x => !s.gone.contains x) }
  let s := s.modFront p (fun f => { f.take [] with streams := f.streams, resetting := false })
  (s.drainStart p old).cohPump

/-- R313, step 1: nothing more is fetched for the partition, and its voyage stops through the hold tree (R181). -/
def State.resetPart (s : State) (p : Nat) : State :=
  let s := (s.setPState p 8).modFront p (fun f => { f with fetch := [], place := [], toPlace := [], gather := false, waiting := false })
  let s := s.stopAhead p (endStatus 0)
  if (s.part p).live then s.modFront p (fun f => { f with resetting := true }) else s.resetGo p

/-- The stop of an instance reset has fallen: the reset goes on. -/
def State.resetIf (s : State) (p : Nat) : State :=
  if (s.front p).resetting && !(s.part p).live then s.resetGo p else s

/-- R313, steps 5 to 7. -/
def State.finishReset (s : State) (p ccy : Nat) : State :=
  let s := ((s.resetTallies p).takeWaits.clearClusters p).releaseStreams p 0 2
  let s := s.post 0x0102 0x02 p locNone (s.fld F.FE_PSTAT.GEN [p]) ccy
  s.setPState p 1

/-- R354, after the drain: the partition gives up what it holds, and its clusters begin to clear. -/
def State.finishDissolve (s : State) (p : Nat) : State :=
  let s := ((s.resetTallies p).clearClusters p).releaseStreams p 0 2
  let cls := (s.part p).cls
  let s := forClusters cls (fun c a => a.leavePartition c) s
  let s := (s.tallyRange p).foldl (fun a t => a.setWord .TDE_TCFG [t] (resetWord .TDE_TCFG [t])) s
  let s := s.setWord .TDE_PRANGE [p] 0
  let s := ((s.setWord .FRY_PMASK [p] 0).setWord .FRY_PRATE [p] 0).setFld F.CHT_ROOT.VAL [p] 0
  let s := s.setFld F.PWR_PCFG.PFRAC [p] 0
  let s : State := { s with
    bucket := SMap.set 0 s.bucket p 0
    pcmd := match s.pcmd with | some c => some { c with cls := cls } | none => none }
  let s := (s.modPart p (fun _ => Part.empty)).modFront p (fun f => { Fe.empty with gq := f.gq, gqovf := f.gqovf })
  (s.setPState p 0).cohPump

/-- Step 7 of R343: the old generation of partition `p` is drained. -/
def State.drainDone (s : State) (p gen ccy : Nat) : State :=
  let s : State := { s with drains := s.drains.filter (fun d => d.1 != p) }
  let s := s.setFld F.FRY_PDRAIN.DGEN [p] gen
  if (s.front p).dissolving then s.finishDissolve p else (s.finishReset p ccy).cohPump

/-- GENERATION_DRAINED (R343). -/
def execGenerationDrained (p : Fin 16) (ccyTaken : Nat) (s : State) : Res := onCore s fun s =>
  match s.drains.find? (fun d => d.1 == p.val) with
  | some d => if s.drained p.val then s.drainDone p.val d.2 ccyTaken else s
  | none => s.resetIf p.val

/-- DRAIN_OVERRUN (R344): the outstanding reads of the old generation are abandoned, and the drain is complete. -/
def execDrainOverrun (p : Fin 16) (s : State) : Res := onCore s fun s =>
  let p := p.val
  match s.drains.find? (fun d => d.1 == p) with
  | some d =>
    if s.drained p then s
    else
      let mine := fun (f : Fly) => f.part == p && f.sink
      let n := engines.foldl (fun a e => a + ((s.eng e).fly.filter (fun f => mine f && !f.wr)).length) 0
      let s := engines.foldl (fun a e =>
        if (a.eng e).fly.any mine then a.modEng e (fun k => { k with fly := k.fly.filter (fun f => !mine f) }) else a) s
      let s := s.incFld F.FRY_PDRAIN.ABND [p] n
      (s.post 0x0503 0x04 p locNone d.2 n).drainDone p d.2 (s.fld F.CLK_CCLK.CUR [] / 50)
  | none => s

/-! ### Partition commands (R300) -/

/-- R300: an ABORT. -/
def State.abortPart (s : State) (p : Nat) : State :=
  if (s.part p).live then s.stopAhead p (endStatus 0x14)
  else
    let st := s.fld F.FE_PSTAT.STATE [p]
    if 2 ≤ st ∧ st ≤ 5 then (s.closeMan p (endStatus 0x14)).cohPump else s

/-- A write of FE_PCMD_p: 1 RESET, 2 ABORT, 3 HALT, 4 GO (R300, R313, R315). -/
def State.pcmdWrite (s : State) (q : Requester) (p op : Nat) : State :=
  if !isFw q && !(s.rightsOf q).ofPart p then s.deny q (regAddr .FE_PCMD [p])
  else
    let st := s.fld F.FE_PSTAT.STATE [p]
    if st = 8 then s.status stBusy
    else if st = 0 ∨ (s.front p).dissolving then s.status stOk
    else
      match op with
      | 1 => if 65535 ≤ s.fld F.FE_PSTAT.GEN [p] then s.status stInvalid else (s.resetPart p).status stOk
      | 2 => (s.abortPart p).status stOk
      | 3 => (s.modFront p (fun f => { f with halt := true })).status stOk
      | 4 => (s.modFront p (fun f => { f with halt := false })).status stOk
      | _ => s.status stOk

/-- PCMD_RESET. -/
def execPcmdReset (q : Requester) (p : Fin 16) (s : State) : Res := onCore s (fun s => s.pcmdWrite q p.val 1)
/-- PCMD_ABORT. -/
def execPcmdAbort (q : Requester) (p : Fin 16) (s : State) : Res := onCore s (fun s => s.pcmdWrite q p.val 2)
/-- PCMD_HALT. -/
def execPcmdHalt (q : Requester) (p : Fin 16) (s : State) : Res := onCore s (fun s => s.pcmdWrite q p.val 3)
/-- PCMD_GO. -/
def execPcmdGo (q : Requester) (p : Fin 16) (s : State) : Res := onCore s (fun s => s.pcmdWrite q p.val 4)

/-! ### CREATE (R350-R353) -/

/-- The partition exists (FE_STAT). -/
def State.exists_ (s : State) (p : Nat) : Bool := s.fld F.FE_PSTAT.STATE [p] != 0

/-- Sum of RATE over the existing partitions. -/
def State.rateSum (s : State) : Nat :=
  ((List.range 16).filter s.exists_).foldl (fun a p => a + s.fld F.FRY_PRATE.RATE [p]) 0

/-- The lowest base of `n` contiguous free tallies (R353). -/
def State.freeTallies (s : State) (n : Nat) : Option Nat :=
  lowestFit ((List.range 16).filterMap (fun p =>
    if s.fld F.TDE_PRANGE.CNT [p] = 0 then none
    else some (s.fld F.TDE_PRANGE.BASE [p], s.fld F.TDE_PRANGE.BASE [p] + s.fld F.TDE_PRANGE.CNT [p]))) 16384 n

/-- What a CREATE asks for (R350). -/
structure CreateReq where
  part : Nat
  mode : Nat
  w : Nat
  h : Nat
  x0 : Nat
  y0 : Nat
  ntally : Nat
  resv : Nat
  burst : Nat
  fprio : Nat
  pfrac : Nat
  engmask : Nat
  root : Nat
  holdt : Nat
  deriving DecidableEq, Repr

/-- The entries of OD 0x3100. -/
def State.createReq (s : State) : CreateReq :=
  let g := s.odNat 0x3100
  ⟨g 2 0, g 3 0, g 4 1, g 5 1, g 6 0xFF, g 7 0xFF, g 8 64, g 9 0, g 10 64, g 11 0, g 12 0, g 13 0, g 14 0, g 15 0⟩

/-- R352: the RESULT of the first check that fails; 0 where none does. -/
def State.createCheck (s : State) (r : CreateReq) : Nat :=
  let m := meshSize s.fuses.grade
  let auto := r.x0 == 0xFF && r.y0 == 0xFF
  let at_ := r.x0 != 0xFF && r.y0 != 0xFF && decide (r.x0 + r.w ≤ m.1) && decide (r.y0 + r.h ≤ m.2)
  if 15 < r.part ∨ s.exists_ r.part then 1
  else if 1 < r.mode ∨ r.w = 0 ∨ m.1 < r.w ∨ r.h = 0 ∨ m.2 < r.h ∨ r.ntally = 0 ∨ 16384 < r.ntally ∨ r.burst < 4 ∨
      3 < r.fprio ∨ !(r.mode == 1 || auto || at_) then 2
  else if r.root / 2 ^ 52 ≠ 0 ∨ r.root % 4096 ≠ 0 then 3
  else if s.odNat 0x4120 3 0 ≠ 1 then 4
  else if r.mode = 1 ∧ 2 ≤ ((List.range 16).filter (fun p => s.exists_ p && (s.front p).priv)).length then 5
  else if (s.freeTallies r.ntally).isNone then 6
  else if 9 * s.gbw < 10 * (150 * (s.rateSum + cdiv r.resv 150)) then 7
  else if 1024 < r.pfrac + ((List.range 16).filter s.exists_).foldl (fun a p => a + s.fld F.PWR_PCFG.PFRAC [p]) 0 then 8
  else if r.mode = 0 ∧ !(if auto then (s.findRect r.w r.h).isSome else s.rectFree r.x0 r.y0 r.w r.h) then 9
  else 0

/-- The command ends with a RESULT; OP reads 0. -/
def State.cmdEnd (s : State) (res : Nat) : State :=
  let s : State := { s with pcmd := none }
  (s.odSet 0x3100 16 1 res).odSet 0x3100 1 1 0

/-- R353: the partition is created. -/
def State.createPart (s : State) (r : CreateReq) : State :=
  let p := r.part
  let base := (s.freeTallies r.ntally).getD 0
  let s := s.setFlds [p] [(F.TDE_PRANGE.BASE, base), (F.TDE_PRANGE.CNT, r.ntally)]
  let s := (s.tallyRange p).foldl (fun a t => a.setFlds [t] [(F.TDE_TCFG.ASG, 1), (F.TDE_TCFG.OWNER, p)]) s
  let s := s.setFld F.FRY_PMASK.MASK [p] (if r.engmask = 0 then 2 ^ 64 - 1 else r.engmask)
  let s := s.setFlds [p] [(F.FRY_PRATE.RATE, cdiv r.resv 150), (F.FRY_PRATE.BURST, r.burst), (F.FRY_PRATE.PRIO, r.fprio),
    (F.CHT_ROOT.BASE, r.root / 4096), (F.CHT_ROOT.VAL, 1), (F.PWR_PCFG.PFRAC, r.pfrac), (F.PWR_PENERGY.E, 0),
    (F.FE_PSTAT.GEN, 0)]
  let s := (List.range 8).foldl (fun a l => (List.range 2).foldl (fun a k =>
    if a.bit F.LND_FLCFG.VAL [l, k] && a.fld F.LND_FLCFG.PART [l, k] == p then a.clearCtl l k else a) a) s
  let s : State := { s.setWord .PWR_PBUB [p] 0 with pow := { s.pow with hseen := s.pow.hseen.filter (· != p) } }
  let s := (s.modPart p (fun _ => Part.empty)).modFront p (fun f =>
    { Fe.empty with priv := r.mode == 1, w := r.w, h := r.h, holdt := r.holdt, gq := f.gq, gqovf := f.gqovf })
  let xy : Nat × Nat :=
    if r.mode = 1 then (0xFF, 0xFF)
    else if r.x0 = 0xFF then (s.findRect r.w r.h).getD (0, 0) else (r.x0, r.y0)
  let s := if r.mode = 1 then s else s.takeRect p xy.1 xy.2 r.w r.h
  let s := if r.mode = 1 then s else (s.odSet 0x3100 17 1 xy.1).odSet 0x3100 18 1 xy.2
  let s := s.post 0x0104 0x02 p locNone p (xy.1 + xy.2 * 2 ^ 8 + r.w * 2 ^ 16 + r.h * 2 ^ 24)
  ((s.cmdEnd 0).setPState p 1).cohPump

/-- CREATE (R351-R353): outside the span of a tide. -/
def execCreate (s : State) : Res := onCore s fun s =>
  match s.pcmd with
  | some c =>
    if c.op = 1 ∧ s.fld F.TDE_TSTAT.STATE [] = 0 then
      let r := s.createReq
      match s.createCheck r with
      | 0 => s.createPart r
      | n => s.cmdEnd n
    else s
  | none => s

/-! ### DISSOLVE (R354) -/

/-- R354: DISSOLVE of partition `p` is refused. -/
def State.dissolveRefused (s : State) (p : Nat) : Nat :=
  if 15 < p ∨ !s.exists_ p then 1
  else if s.fld F.FE_PSTAT.STATE [p] ≠ 1 ∨ (List.range 64).any (fun r =>
    s.fld F.FE_RING_CFG.PART [r] == p && s.bit F.FE_RING_CFG.EN [r]) then 0x0A
  else 0

/-- DISSOLVE (R354): refused, or the partition begins to drain. (log 54, DESIGN CHOICE) -/
def execDissolve (s : State) : Res := onCore s fun s =>
  match s.pcmd with
  | some c =>
    let p := s.odNat 0x3100 2 0
    if c.op ≠ 2 ∨ s.fld F.TDE_TSTAT.STATE [] ≠ 0 ∨ c.begun then s
    else
      match s.dissolveRefused p with
      | 0 =>
        let old := s.fld F.FE_PSTAT.GEN [p]
        let s := (s.raiseGen p).modFront p (fun f => { f with dissolving := true })
        let s : State := { s with pcmd := some ⟨2, p, [], s.fld F.FE_PSTAT.GEN [p], true⟩ }
        (s.drainStart p old).touch (128 + p) |>.cohPump
      | n => s.cmdEnd n
  | none => s

/-- DISSOLVE_COMPLETE (R354): the last cluster is clear. -/
def execDissolveComplete (p : Fin 16) (s : State) : Res := onCore s fun s =>
  match s.pcmd with
  | some c =>
    if c.op = 2 ∧ c.part = p.val ∧ !s.exists_ p.val ∧ c.cls.all (fun x => !(s.clu x).leaving) then
      (s.cmdEnd 0).post 0x0105 0x02 p.val locNone p.val c.gen
    else s
  | none => s

/-- HOLDT_EXPIRY (R359): a privileged partition with nothing to do gives up its clusters. -/
def execHoldtExpiry (p : Fin 16) (s : State) : Res := onCore s fun s =>
  let p := p.val
  if (s.front p).priv ∧ s.fld F.FE_PSTAT.STATE [p] = 1 ∧ !(s.part p).cls.isEmpty ∧ !(s.front p).dissolving ∧
      !(s.ringsOf p).any s.ringPending then
    let cls := (s.part p).cls
    let s := (s.clearClusters p)
    let s := forClusters cls (fun c a => a.leavePartition c) s
    s.modPart p (fun q => { q with cls := [] })
  else s

end Sys2Proof.Machine
end

