-- ==== Sys2Proof/Machine/Recover.lean ====
section
/-! DEFINITION. Recovery of a partition (R441-R450): fault reports, the end of a restore, the commands of FLT_RCMD, the
default action, and the members of a through-sailing partition. -/

namespace Sys2Proof.Machine

/-! ### Ending a voyage in recovery -/

/-- The FCODE with which END closes (R445, R447). (log 51, DEDUCED) -/
def State.endCode (s : State) (p : Nat) : Nat :=
  (((s.part p).rems.filterMap (fun r => match r with | .endv f => some f | _ => none)).head?).getD 0x47

/-! ### Fault reports (R441) -/

/-- R441-R445: what a report from a fault path does. -/
def State.faultReport (s : State) (r : FaultReport) : State :=
  match r with
  | .lane c core row phys => s.laneFault c core.val (match row with | .a => 0 | .b => 1) phys.val
  | .fma c core row => s.coreFault c core.val (some (match row with | .a => 0 | .b => 1))
  | .post c core => s.coreFault c core.val none
  | .store c st line => (s.countEcc c st.val (4 * line) true).scheduledUe c st.val (4 * line)
  | .table c p => s.contain p.val c 8 0 0 0 3 (.endv 0x45)
  | .sailTable c => s.contain (s.partOf c) c 4 0 0 0 3 (.reload c none)
  | .router c => (s.setFld F.CHN_RCFG.RFEN [c] 1).contain (s.partOf c) c 5 0 0 0 5 (.fence c)
  | .link c port => (s.portError (s.partOf c) c port.val).linkFault (s.partOf c) c
  | .tally p => s.contain p.val (((s.part p.val).cls.head?).getD 0) 7 0 0 0 0 (.endv 0x42)

/-- The cluster a report names, where it names one. -/
def reportCluster : FaultReport → Option Nat
  | .lane c _ _ _ => some c
  | .fma c _ _ => some c
  | .post c _ => some c
  | .store c _ _ => some c
  | .table c _ => some c
  | .sailTable c => some c
  | .router c => some c
  | .link c _ => some c
  | .tally _ => none

/-- The partition a report names. -/
def State.reportPart (s : State) (r : FaultReport) : Nat :=
  match r with
  | .tally p => p.val
  | .table _ p => p.val
  | _ => s.partOf ((reportCluster r).getD 0)

/-- FAULT_DETECTED (R442, R443). A fault found after the next LEG stroke (`late`) ends the voyage at the stop. -/
def execFaultDetected (r : FaultReport) (late : Bool) (s : State) : Res := onCore s fun s =>
  let there := match reportCluster r with | some c => s.inPart c | none => true
  if !there then s
  else
    let s := s.faultReport r
    let p := s.reportPart r
    let st := s.fld F.FLT_PREC.STATE [p]
    if !late || st == 0 then s
    else if st = 1 then s.setStop p (some (s.faultEnd p 0x43)) else s.endFault p 0x43

/-! ### Restore (R204, R443) -/

/-- R204: the dirty granules return from the shadow, whose reads find its ECC errors (R190). -/
def State.copyBack (s : State) (c : Nat) : State :=
  if s.bit F.CLU_STSTAT.RST [c] then
    let s := (s.clu c).dirty.foldl (fun a g => (a.eccRead c 3 (64 * g) (64 * g + 64)).1) s
    let s := s.modClu c (fun k => k.dirty.foldl (fun k g =>
      { k.eccClear 2 (64 * g) (64 * g + 64) with
        p := Mem.store (k.p.clear (64 * g) (64 * g + 64)) (64 * g) (k.sh.bytes (64 * g) 64) }) k)
    let s := s.modClu c (fun k => { k with dirty := [] })
    ((s.setFld F.CLU_STSTAT.RST [c] 0).setFld F.CLU_PSHDW.DIRTY [c] 0).incFld F.CLU_PSHDW.NREST [c] 1
  else s

/-- R190, R195, R445: the front end begins to reload a berth from the image that the manifest names; the berth stays POISONED
until the reload completes. -/
def State.reloadBerth (s : State) (p c h : Nat) : State :=
  let f := s.front p
  let i := findIdx (fun e => leAt e 0 1 == h && (s.entryRect p e 6).contains c) f.berths
  match i with
  | none => s
  | some i =>
    let e := listGet [] f.berths i
    let k := (findIdx (· == c) (s.entryRect p e 6)).getD 0
    let img := leAt e 16 8 + k * leAt e 24 4
    let base := s.berthBase c h
    let s := s.modClu c (fun k => k.eccClear (s.berthStore c h) base (base + s.berthLen c h))
    s.modFront p (fun f => { f with
      loading := f.loading ++ [(c, h, i)]
      place := f.place ++ [loadDesc p (s.fld F.FE_PSTAT.GEN [p]) c h img (s.berthLen c h)] })

/-- R445: reload what the remedies name. -/
def State.beginReloads (s : State) (p : Nat) : State :=
  (s.part p).rems.foldl (fun a r => match r with
    | .reload c (some h) => a.reloadBerth p c h
    | .reload c none =>
      match findIdx (· == c) (a.dirClusters p) with
      | some i =>
        let pilot := a.word .CLU_PSTAT [c]
        (a.loadCluster p (a.front p).image i c).setWord .CLU_PSTAT [c] pilot
      | none => a
    | _ => a) s

/-- R401: a partition stopped under R395 does not resume while a landing that serves it is overdrawn. -/
def State.overdrawnStop (s : State) (p : Nat) : Bool :=
  s.fld F.FLT_PREC.KIND [p] == 6 && (s.slotLands p).any (fun l => s.bit F.LND_STAT.OVRD [l])

/-- A through-sailing partition has every notice and its own: it resumes (R448), where R401 lets it. -/
def State.resumeIf (s : State) (p : Nat) : State :=
  if s.fld F.FLT_PREC.STATE [p] = 4 && s.joinMet p && !s.overdrawnStop p then
    (s.setFld F.FLT_PREC.STATE [p] 0).modPart p (fun q => { q with rems := [] })
  else s

/-- R445, R448: the resumption of partition `p` begins: at once, or as a join with the other members. -/
def State.beginResume (s : State) (p : Nat) : State :=
  let s := s.setFld F.FLT_PREC.STATE [p] 4
  let s := if (s.members p).isEmpty then s
    else (s.modPart p (fun q => { q with joinsSent := q.joinsSent + 1 })).sendCtl p none 8 0 none
  s.resumeIf p

/-- LEG_RESTORE_COMPLETE (R204, R443): the copy is complete and the partition waits for the MP; a member that another die
stopped sends its notice (R448). -/
def execLegRestoreComplete (p : Fin 16) (s : State) : Res := onCore s fun s =>
  let p := p.val
  if s.fld F.FLT_PREC.STATE [p] = 2 then
    let s := forClusters (s.part p).cls (fun c a => a.copyBack c) s
    if !(s.part p).live then s
    else if s.fld F.FLT_PREC.KIND [p] = 0 then s.beginResume p
    else (s.setFld F.FLT_PREC.STATE [p] 3).beginReloads p
  else s

/-- R243, R448: a STOP bit of another member stops the partition here 12 ccy after it arrives, and its leg is restored. -/
def State.remoteStop (s : State) (p : Nat) : State :=
  if (s.part p).live && s.fld F.FLT_PREC.STATE [p] == 0 then
    ((s.setStop p none).setFlds [p] [(F.FLT_PREC.STATE, 1), (F.FLT_PREC.KIND, 0), (F.FLT_PREC.CLIDX, 0)])
  else s

/-! ### The commands (R444) -/

/-- The bad sites of a cluster, as a 66-bit mask. -/
def State.badSites (s : State) (c : Nat) : Nat :=
  s.fld F.CLU_CBAD_0.BAD [c] + s.fld F.CLU_CSITE.BAD64 [c] * 2 ^ 64 + s.fld F.CLU_CSITE.BAD65 [c] * 2 ^ 65

/-- The lowest spare site of a cluster. -/
def State.spareSite (s : State) (c : Nat) : Option Nat :=
  if s.fld F.CLU_CSITE.NSPARE [c] = 0 then none
  else
    let used := (List.range 64).map (s.siteOf c)
    (List.range 66).find? (fun x => !used.contains x && !bitAt (s.badSites c) x)

/-- The bad lanes (0-7) that the maps give a row of a site (R438). -/
def State.mapLanes (s : State) (c site row : Nat) : List Nat :=
  let xy := s.physOf c
  nub ((s.fuses.recs ++ s.fmap).filterMap (fun r =>
    if r.kind.toNat == 2 && r.px.toNat == xy.1 && r.py.toNat == xy.2 && r.site.toNat == site && r.row.toNat == row &&
      decide (r.lane.toNat < 8) then some r.lane.toNat else none))

/-- BYP of a row of a site (R125, R438). -/
def State.mapByp (s : State) (c site row : Nat) : Nat :=
  match s.mapLanes c site row with
  | [l] => l
  | _ => 0xF

/-- Mark a site bad. -/
def State.markBad (s : State) (c site : Nat) : State :=
  if site < 64 then s.setFld F.CLU_CBAD_0.BAD [c] (setBit (s.fld F.CLU_CBAD_0.BAD [c]) site true)
  else if site = 64 then s.setFld F.CLU_CSITE.BAD64 [c] 1
  else s.setFld F.CLU_CSITE.BAD65 [c] 1

/-- Put logical core `n` on a site, with the lanes that the maps give it. -/
def State.placeCore (s : State) (c n site : Nat) : State :=
  let w := s.word .CLU_CMAP [c, n / 8]
  let s := s.setWord .CLU_CMAP [c, n / 8] (putBits w (8 * (n % 8)) 7 site)
  s.setFlds [c, n] [(F.CLU_LMAP.BYP_A, s.mapByp c site 0), (F.CLU_LMAP.BYP_B, s.mapByp c site 1), (F.CLU_LMAP.CBAD, 0)]

/-- REMAP: false where no spare remains. -/
def State.remap (s : State) (p c core : Nat) : State × Bool :=
  match s.spareSite c with
  | none => (s, false)
  | some site =>
    let old := s.siteOf c core
    let s := (s.markBad c old).logDefect c 1 old 0xFF 0xFF 2
    let s := s.setFld F.CLU_CSITE.NSPARE [c] (s.fld F.CLU_CSITE.NSPARE [c] - 1)
    let s := (s.placeCore c core site).incFld F.FLT_CNT_1.REMAP [] 1
    let s := s.modPart p (fun q => { q with rems := q.rems.filter (fun r => r != .remap c core) })
    (s.post 0x0803 0x18 p c core (old * 256 + site), true)

/-- FENCE: the cluster is fenced for good, and the voyage is to end with FCODE 0x40. -/
def State.fenceGood (s : State) (p c : Nat) : State :=
  let lacks := (s.part p).rems.any (fun r => match r with | .remap d _ => d == c | _ => false) && (s.spareSite c).isNone
  let s := if lacks then s.setFld F.CLU_CSITE.FCAUSE [c] 6 else s
  let cause := s.fld F.CLU_CSITE.FCAUSE [c]
  let s := s.setFlds [c] [(F.CLU_CSITE.PERM, 1), (F.CLU_CSITE.FEN, 1)]
  let s := (s.logDefect c (if s.bit F.CHN_RCFG.RFEN [c] then 4 else 3) 0xFF 0xFF 0xFF
    (if cause = 3 then 3 else if cause = 4 ∨ cause = 5 then 4 else 2)).incFld F.FLT_CNT_1.PERM [] 1
  let s := s.modPart p (fun q => { q with rems := .endv 0x40 :: q.rems.filter (fun r => r != .fence c) })
  s.post 0x0802 0x18 p c cause p

/-- A reload of the partition's recovery has not ended. -/
def State.reloading (s : State) (p : Nat) : Bool := !(s.front p).loading.isEmpty

/-- REPLAY: the partition resumes at the leg's first stroke; RLIM replays of one leg end the voyage (R444, R447). -/
def State.replay (s : State) (p : Nat) : State :=
  let n := s.fld F.FLT_PREC.NREP [p]
  if max 1 (s.fld F.FLT_CTL.RLIM []) ≤ n then s.endFault p 0x44
  else
    let c := s.fld F.FLT_PREC.CLIDX [p]
    let s := forClusters (s.part p).cls (fun c a =>
      if a.bit F.CLU_CSITE.FEN [c] && !a.bit F.CLU_CSITE.PERM [c] then
        a.setFlds [c] [(F.CLU_CSITE.FEN, 0), (F.CLU_CSITE.FCAUSE, 0)]
      else a) s
    let s := (s.setFld F.FLT_PREC.NREP [p] (n + 1)).incFld F.FLT_CNT_1.REPLAY [] 1
    let s := s.modFront p (fun f => { f with nrep := f.nrep + 1 })
    (s.post 0x0805 0x18 p c p (s.fld F.CLU_PSHDW.LEGNO [c])).beginResume p

/-- R444, R462: a write of FLT_RCMD: OP 1 REPLAY, 2 REMAP, 3 FENCE, 4 END. RES 3 where the partition has not finished its
restore or a reload, or the cluster is not of the partition. -/
def State.rcmd (s : State) (q : Requester) (op p c core : Nat) : State :=
  if !isFw q then s.deny q (regAddr .FLT_RCMD [])
  else
    let s := s.setFlds [] [(F.FLT_RCMD.PART, p), (F.FLT_RCMD.CORE, core), (F.FLT_RCMD.CLIDX, c), (F.FLT_RCMD.OP, 0)]
    let st := s.fld F.FLT_PREC.STATE [p]
    let r : State × Nat :=
      if st = 0 then (s, 1)
      else
        match op with
        | 1 => if st = 3 ∧ !s.reloading p then (s.replay p, 0) else (s, 3)
        | 2 =>
          if !(s.part p).cls.contains c then (s, 3)
          else
            let x := s.remap p c core
            (x.1, if x.2 then 0 else 2)
        | 3 => if (s.part p).cls.contains c then (s.fenceGood p c, 0) else (s, 3)
        | 4 => (s.endFault p (s.endCode p), 0)
        | _ => (s, 3)
    (r.1.setFld F.FLT_RCMD.RES [] r.2).status stOk

/-- RCMD_REPLAY. -/
def execRcmdReplay (q : Requester) (p : Fin 16) (s : State) : Res := onCore s (fun s => (s.rcmd q 1 p.val 0 0).cohPump)
/-- RCMD_REMAP. -/
def execRcmdRemap (q : Requester) (p : Fin 16) (c : BitVec 11) (core : Fin 64) (s : State) : Res :=
  onCore s (fun s => s.rcmd q 2 p.val c.toNat core.val)
/-- RCMD_FENCE. -/
def execRcmdFence (q : Requester) (p : Fin 16) (c : BitVec 11) (s : State) : Res := onCore s (fun s => s.rcmd q 3 p.val c.toNat 0)
/-- RCMD_END. -/
def execRcmdEnd (q : Requester) (p : Fin 16) (s : State) : Res := onCore s (fun s => (s.rcmd q 4 p.val 0 0).cohPump)

/-- The spare sites a cluster has left. -/
def State.spares (s : State) (c : Nat) : Nat :=
  let used := (List.range 64).map (s.siteOf c)
  min (s.fld F.CLU_CSITE.NSPARE [c]) ((List.range 66).filter (fun x => !used.contains x && !bitAt (s.badSites c) x)).length

/-- R444: the remedies that the hardware can carry out alone: none, or REMAPs with a spare for each. -/
def State.selfRemedied (s : State) (p : Nat) : Bool :=
  let rems := (s.part p).rems
  let inClu := fun (c : Nat) => rems.filter (fun r => match r with | .remap d _ => d == c | _ => false)
  !s.reloading p && rems.all (fun r => match r with
    | .none => true
    | .remap c _ => decide ((inClu c).length ≤ s.spares c)
    | .reload _ _ => true
    | _ => false)

/-- RWD_EXPIRY (R444): the default action: the REMAPs and REPLAY, or END with FCODE 0x47. -/
def execRwdExpiry (p : Fin 16) (s : State) : Res := onCore s fun s =>
  let p := p.val
  if s.fld F.FLT_PREC.STATE [p] ≠ 3 then s
  else
    let c := s.fld F.FLT_PREC.CLIDX [p]
    let s := s.incFld F.FLT_CNT_1.WDOG [] 1
    if s.selfRemedied p then
      let s := s.post 0x0806 0x18 p c p 1
      let s := (s.part p).rems.foldl (fun a r => match r with | .remap c n => (a.remap p c n).1 | _ => a) s
      (s.replay p).cohPump
    else ((s.post 0x0806 0x18 p c p 4).endFault p 0x47).cohPump

/-- JOIN_TIMEOUT (R448): a notice has not arrived: every member ends the voyage. -/
def execJoinTimeout (p : Fin 16) (s : State) : Res := onCore s fun s =>
  let p := p.val
  if s.fld F.FLT_PREC.STATE [p] ≠ 0 && !(s.members p).isEmpty && !s.joinMet p then (s.endFault p 0x46).cohPump else s

end Sys2Proof.Machine
end

