-- ==== Sys2Proof/Machine/Landing.lean ====
section
/-! DEFINITION. Landings: training and the capability exchange (R372-R377, R387-R389, R511), the modules, their lanes and
planned changes (R397-R400, R403), and what a landing delivers (R383, R384, R391-R395, R242). -/

namespace Sys2Proof.Machine

/-! ### Answers to the die's requests (R373, R383), and a landing that goes DOWN -/

/-- Records that the persistent log holds (R483, R485). -/
def State.logRecs (s : State) : Nat := 2 ^ min 24 (max 8 (s.odNat 0x6000 2 12))

/-- R485: a write of a log record has its answer. After the last one WIDX moves on and the header is written; after an error the
records stay to be copied. (log 56, DESIGN CHOICE) -/
def State.logAck (s : State) (tag : Nat) (error : Bool) : State :=
  let m := s.mp
  if error then s.modMp (fun m => { m with plN := 0, plOver := 0, plOut := [] })
  else if m.plOut.any (· != tag) then s.modMp (fun m => { m with plOut := m.plOut.filter (· != tag) })
  else
    let base := s.odNat 0x6000 1 0
    let w := (if m.plNew then 0 else s.odNat 0x6000 3 0) + m.plN
    let lost := satAdd 32 m.lost m.late
    let s := s.incFld F.MGT_CNT.LOGLOST [] m.late
    let s := (s.modMp (fun m => { m with
      rlNew := m.rlNew - (m.plN - m.plOver), lost := lost, late := 0, plNew := false, plN := 0, plOver := 0, plOut := [] })).odSet
      0x6000 3 8 (w % 2 ^ 64)
    (s.writeLines base (leBytes 8 w ++ leBytes 4 lost ++ leBytes 4 s.logRecs ++ List.replicate 48 0) 2).1

/-- A write under a request tag is complete, or ended in an error. -/
def State.writeEnd (s : State) (tag : Nat) (error : Bool) : State :=
  match s.tagged tag true with
  | some (e, i, f) => s.pieceEnd e i (if error then .memErr f.off else .done f.off)
  | none =>
    if s.evOut.contains tag then s.eventAck tag error
    else if s.mp.plOut.contains tag then s.logAck tag error
    else if s.seOut.any (fun x => x.1 == tag) then { s with seOut := s.seOut.filter (fun x => x.1 != tag) } else s

/-- A read brought poisoned data (R329, R373). -/
def State.readPoison (s : State) (tag : Nat) : State :=
  match s.tagged tag false with
  | some (e, i, f) => s.pieceEnd e i (.poison f.off)
  | none => s

/-- A read under a request tag ended in an error; otherwise a write did. (log 34, DESIGN CHOICE) -/
def State.accessErr (s : State) (tag : Nat) : State :=
  match s.tagged tag false with
  | some (e, i, f) => s.pieceEnd e i (.memErr f.off)
  | none => s.writeEnd tag true

/-- What a landing keeps while it is down: the lane errors of the tide period and the redundant lanes that have failed. -/
def Land.down (k : Land) : Land := { Land.empty with perr := k.perr, redFail := k.redFail }

/-- A landing goes DOWN (R401): requests routed to it end with MEMERR, those that wait for an answer too. (log 65, DEDUCED) -/
def State.landDown (s : State) (l : Nat) : State :=
  if s.lstate l = 0 then s
  else
    let s := (List.range 4).foldl (fun a m =>
      if a.fld F.LND_MOD.MST [l, m] = 5 then a else a.setFld F.LND_MOD.MST [l, m] 0) s
    let s := s.setFlds [l] [(F.LND_STAT.STATE, 0), (F.LND_STAT.CLS, 0), (F.LND_STAT.VER, 0)]
    let open_ := (s.lnd l).sent
    let s := s.modLand l Land.down
    let s := if s.bit F.LND_RTCMD.BUSY [l] then s.rtEnd l 3 else s
    let s := (s.post 0x0605 0x08 partNone (4 * l) l 0).moduleSet l
    open_.foldl State.accessErr s

/-- R452: once no through-sailing voyage runs on a lost reference, the fixed-latency landings go DOWN. (log 82, DEDUCED) -/
def State.refDown (s : State) : State :=
  if s.bit F.CLK_REF.HOLD [] && !s.bit F.CLK_REF.LOCK [] && !(List.range 16).any s.sailsThrough then
    lands8.foldl (fun a l => if a.lstate l = 3 then a.landDown l else a) s
  else s

/-! ### Training -/

/-- State of a module (R404): 0 OFF, 1 TRAIN, 2 x64, 3 x32 lower, 4 x32 upper, 5 RETIRED, 6 RETRAIN. -/
def State.mst (s : State) (l m : Nat) : Nat := s.fld F.LND_MOD.MST [l, m]

/-- A module carries traffic. -/
def carries (st : Nat) : Bool := st == 2 || st == 3 || st == 4

/-- A landing begins to train. -/
def State.landTrain (s : State) (l : Nat) : State :=
  let s := (List.range 4).foldl (fun a m => if a.mst l m = 5 then a else a.setFld F.LND_MOD.MST [l, m] 1) s
  let s := s.modLand l Land.down
  s.setFlds [l] [(F.LND_STAT.STATE, 1), (F.LND_STAT.PROTO, 0), (F.LND_STAT.CLS, 0), (F.LND_STAT.VER, 0)]

/-- LND_CTL.EN is cleared: the landing is DOWN and its modules are off (R404). -/
def State.landOff (s : State) (l : Nat) : State :=
  let s := s.landDown l
  ((List.range 4).foldl (fun a m => a.setFld F.LND_MOD.MST [l, m] 0) s).moduleSet l

/-- Training or negotiation fails (R374, R388): the landing stays DOWN, and event 0x0608 tells the cause. -/
def State.trainFail (s : State) (l cause : Nat) : State :=
  let s := (List.range 4).foldl (fun a m => if a.mst l m = 5 then a else a.setFld F.LND_MOD.MST [l, m] 0) s
  let s := (s.modLand l Land.down).setFlds [l]
    [(F.LND_STAT.STATE, 0), (F.LND_STAT.CLS, 0), (F.LND_STAT.VER, 0)]
  (s.post 0x0608 0x08 partNone (4 * l) l cause).moduleSet l

/-- What is under way for a module is dropped: a change agreed, in progress or waiting, and a retrain; a command ends failed
(R400). -/
def State.dropModule (s : State) (l m : Nat) : State :=
  let k := s.lnd l
  let cmd := (k.chg.toList ++ k.wait ++ k.retr).any (fun c => c.m == m && c.cmd)
  let s := s.modLand l (fun k => { k with
    chg := if k.chg.any (fun c => c.m == m) then none else k.chg, wait := k.wait.filter (fun c => c.m != m),
    retr := k.retr.filter (fun c => c.m != m) })
  if cmd && s.bit F.LND_RTCMD.BUSY [l] then s.rtEnd l 3 else s

/-- A module is retired (R406, event 0x0604). -/
def State.retireModule (s : State) (l m cause : Nat) : State :=
  let s := (s.setFld F.LND_MOD.MST [l, m] 5).modLand l (fun k =>
    { k with retr := k.retr.filter (fun c => c.m != m), partner := k.partner.filter (fun x => x / 8 != m) })
  let s := s.moduleSet l
  s.post 0x0604 0x08 partNone (4 * l + m) cause (s.capHalf l)

/-- R401: a landing with no active module is DOWN. -/
def State.downIfNone (s : State) (l : Nat) : State :=
  if 2 ≤ s.lstate l && s.lstate l != 4 && s.capHalf l == 0 then s.landDown l else s

/-- The die sends its capability block (R387); LND_CAPL shows it. -/
def State.sendCap (s : State) (l : Nat) : State :=
  let b := s.ownCap l
  let s := (List.range 4).foldl (fun a j => a.setWord .LND_CAPL [l, j] (leAt b (8 * j) 8)) s
  s.emit (.cap l b)

/-- SIDEBAND_UP (R511): the first module whose sideband comes up lets the die send its own block. -/
def execSidebandUp (l : Fin 8) (m : Fin 4) (s : State) : Res := onCore s fun s =>
  let l := l.val
  let m := m.val
  let k := s.lnd l
  if s.lstate l = 1 ∧ s.mst l m = 1 ∧ m ∉ k.sideUp then
    let s := s.modLand l (fun k => { k with sideUp := k.sideUp ++ [m] })
    if k.sideUp.isEmpty then (s.modLand l (fun k => { k with capSent := 1 })).sendCap l else s
  else s

/-- SIDEBAND_UP_TIMEOUT (R511): the module is retired. -/
def execSidebandUpTimeout (l : Fin 8) (m : Fin 4) (s : State) : Res := onCore s fun s =>
  let l := l.val
  let m := m.val
  if s.lstate l = 1 ∧ s.mst l m = 1 ∧ m ∉ (s.lnd l).sideUp then s.retireModule l m 2 else s

/-- CAPABILITY_TIMEOUT (R511): the own block is sent once more, and then the landing is DOWN. -/
def execCapabilityTimeout (l : Fin 8) (s : State) : Res := onCore s fun s =>
  let l := l.val
  let k := s.lnd l
  if s.lstate l = 1 ∧ !k.sideUp.isEmpty ∧ !k.capOk then
    if k.capSent ≤ 1 then (s.modLand l (fun k => { k with capSent := 2 })).sendCap l else s.trainFail l 7
  else s

/-- MAXPL of a FEAT byte in 16-byte units: 64, 128 or 256 bytes. (log 31, DESIGN CHOICE) -/
def maxplUnits (feat : Nat) : Nat := 4 * 2 ^ min 2 (feat % 4)

/-- R387: a partner block takes effect: all but VMAX, VMIN, CLS and MAXPL, which change only at retraining. -/
def State.takeCap (s : State) (l : Nat) (b : Bytes) (training : Bool) : State :=
  let old := (List.range 4).flatMap (fun j => leBytes 8 (s.word .LND_CAPP [l, j]))
  let feat := leAt b 3 1
  let b :=
    if training then b
    else overwrite b 0 (slice old 0 3 ++ leBytes 1 (feat - feat % 4 + leAt old 3 1 % 4))
  let s := (List.range 4).foldl (fun a j => a.setWord .LND_CAPP [l, j] (leAt b (8 * j) 8)) s
  (s.setFld F.LND_STAT.PPOS [l] (leAt b 4 1)).modLand l (fun k => { k with keys := bitAt feat 2 })

/-- R388: the version and the classes are agreed, or the training fails. -/
def State.agree (s : State) (l : Nat) (b : Bytes) : State :=
  let ver := min 0x10 (leAt b 0 1)
  let cls := Nat.land 0x3F (leAt b 2 1)
  if ver < max 0x10 (leAt b 1 1) then s.trainFail l 1
  else if !bitAt cls 0 then s.trainFail l 2
  else
    let s := s.takeCap l b true
    let s := s.setFlds [l] [(F.LND_STAT.VER, ver), (F.LND_STAT.CLS, cls)]
    s.modLand l (fun k => { k with
      capOk := true, maxpl := min 16 (maxplUnits (leAt b 3 1)), cred := (List.range 6).map (fun c => leAt b (0x0C + c) 1) })

/-- CAPABILITY_BLOCK (R387, R388, R511). (log 31, DESIGN CHOICE) -/
def execCapabilityBlock (l : Fin 8) (data : Bytes) (s : State) : Res := onCore s fun s =>
  let l := l.val
  let b := slice data 0 32
  let good := decide (crc32 (slice b 0 28) = leAt b 28 4)
  let k := s.lnd l
  if s.lstate l = 1 ∧ !k.sideUp.isEmpty then
    if good then s.agree l b
    else if 1 ≤ k.capBad then s.trainFail l 5
    else (s.modLand l (fun k => { k with capBad := 1 })).sendCap l
  else if s.torec l ∧ good then s.modLand l (fun k => { k with capNext := some b })
  else s

/-- R389: the conditions of fixed-latency mode, at a lane rate. Before step 8 of bring-up every landing trains in ordinary
mode (R434). -/
def State.fixedOk (s : State) (l rate : Nat) : Bool :=
  let feat := bits (s.word .LND_CAPP [l, 0]) 24 8
  let ccy := s.fld F.CLK_CCLK.CUR []
  decide (8 ≤ s.bring.step) && s.refh && s.bit F.LND_CTL.FLREQ [l] && bitAt feat 3 && bitAt feat 4 && bitAt feat 5 &&
    bits (s.word .LND_CAPP [l, 0]) 48 16 == 0x0D47 && [0x50, 0x4C, 0x48].contains (bits (s.word .LND_CAPP [l, 1]) 0 16) &&
    bits (s.word .LND_CAPP [l, 2]) 32 32 == ccy && decide (0 < ccy) && decide (rateOf rate * 1000000 % ccy = 0) &&
    decide (8 ≤ rateOf rate * 1000000 / ccy) && bitAt (s.fld F.LND_STAT.CLS [l]) 4

/-- Data lanes of a half (0 lower, 1 upper) that are marked failed. -/
def State.failedIn (s : State) (l m half : Nat) : Nat := popcount 32 (bits (s.fld F.LND_FAIL.FAIL [l, m]) (32 * half) 32)

/-- Redundant lanes of a half that have failed (R398). -/
def State.redIn (s : State) (l m half : Nat) : Nat := popcount 2 (bits (SMap.get 0 (s.lnd l).redFail m) (2 * half) 2)

/-- A lane of a module is marked failed: 0-63 in LND_FAIL, 64-67 with the redundant lanes. -/
def State.markLane (s : State) (l m lane : Nat) : State :=
  if lane < 64 then s.setFld F.LND_FAIL.FAIL [l, m] (setBit (s.fld F.LND_FAIL.FAIL [l, m]) lane true)
  else s.modLand l (fun k => { k with redFail := SMap.upd 0 k.redFail m (fun w => setBit w (lane - 64) true) })

/-- A lane of a module is marked failed. -/
def State.laneMarked (s : State) (l m lane : Nat) : Bool :=
  if lane < 64 then bitAt (s.fld F.LND_FAIL.FAIL [l, m]) lane else bitAt (SMap.get 0 (s.lnd l).redFail m) (lane - 64)

/-- The state in which a trained module comes up. In fixed-latency mode a module with a redundant lane in use is at x32, on
a half without failed lanes (R398). -/
def State.trainedMst (s : State) (l m : Nat) (t : Training) (fixed : Bool) : Nat :=
  if bitAt t.half.toNat m then (if bitAt t.upper.toNat m then 4 else 3)
  else
    let lo := s.failedIn l m 0 + s.redIn l m 0
    let hi := s.failedIn l m 1 + s.redIn l m 1
    if !fixed || lo + hi == 0 then 2 else if lo = 0 then 3 else if hi = 0 then 4 else 1

/-- The training ledger of a landing, as OD 0x1210 + l holds it (R435). -/
def State.ledger (s : State) (l : Nat) : Bytes := (SMap.find s.od ((0x1210 + l) * 256 + 1)).getD []

/-- R436: the ledger is used for landing `l`. -/
def State.ledgerOk (s : State) (l : Nat) : Bool :=
  let b := s.ledger l
  let dt : Int := sext 16 (leAt b 10 2) - sext 12 (s.fld F.PWR_TSTAT.TJ [])
  b.length == 512 && leAt b 0x1FC 4 == crc32 (slice b 0 0x1FC) && leAt b 0 1 == 1 && leAt b 1 1 == l &&
    leAt b 5 1 == s.fld F.ID_STRAP.ORIENT [] && decide (leAt b 2 1 ≤ s.fld F.LND_CTL.RMAX [l]) &&
    leAt b 4 1 == s.fld F.LND_STAT.PPOS [l] && leAt b 6 2 == bits (s.word .LND_CAPP [l, 0]) 48 16 &&
    leAt b 8 2 == bits (s.word .LND_CAPP [l, 1]) 0 16 && decide (dt ≤ 320) && decide (-320 ≤ dt)

/-- R436: the data lanes of module `m` that the ledger's repairs replace. -/
def State.ledgerLanes (s : State) (l m : Nat) : List Nat :=
  if s.ledgerOk l then ((List.range 4).map (fun i => leAt (s.ledger l) (0x20 + 0x70 * m + 2 + i) 1)).filter (· < 64) else []

/-- The lanes that training found failed, and those that a ledger repairs, are marked. -/
def State.markTrained (s : State) (l : Nat) (t : Training) : State :=
  let kept := (List.range 4).flatMap (fun m => (s.ledgerLanes l m).map (fun i => (m, i)))
  (t.failed ++ kept).foldl (fun a x =>
    if x.1 < 4 ∧ x.2 < 68 then a.markLane l x.1 x.2 else a) s

/-- R385: a landing that comes up may be the home's: lines asked for over an earlier link are asked for again. -/
def State.cohRestart (s : State) (l : Nat) : State :=
  if s.home = some l then
    (s.coh.foldl (fun a e =>
      if [1, 3, 5].contains e.2.st then a.modLine e.1 (fun x => { x with st := 0, dirty := true }) else a) s).cohPump
  else s

/-- TRAINING_COMPLETE (R374, R389, R398): the landing is UP, FIXED or LOOP, or stays DOWN. (log 5, DESIGN CHOICE; log 31, DESIGN CHOICE) -/
def State.trained (s : State) (l : Nat) (t : Training) : State :=
  let k := s.lnd l
  let torec := s.bit F.LND_CTL.TOREC [l] && k.capOk
  let cxl := t.cxl && !t.io && s.bit F.LND_CTL.CXL [l]
  let sat := s.bit F.DBG_CTL.SATEST []
  if !t.ok || t.act == 0 || !(sat && t.loopback || torec || cxl) then
    -- a module that could not train is retired (R372); the others are off
    let s := (List.range 4).foldl (fun a m =>
      if a.mst l m = 1 && (!t.ok || !bitAt t.act.toNat m) then a.retireModule l m 4 else a) s
    s.trainFail l (if t.io && s.bit F.LND_CTL.CXL [l] then 3 else 7)
  else
    let rate := min t.rate.toNat (min 2 (s.fld F.LND_CTL.RMAX [l]))
    let fixed := torec && !sat && s.fixedOk l rate
    let s := s.markTrained l t
    let up := fun (m : Nat) => bitAt t.act.toNat m && s.mst l m == 1
    let s := (List.range 4).foldl (fun a m =>
      if up m then
        let st := a.trainedMst l m t fixed
        let used := if fixed then 0 else min 2 (a.failedIn l m 0) + min 2 (a.failedIn l m 1)
        a.setFlds [l, m] [(F.LND_MOD.MST, st), (F.LND_MOD.RUSED, used), (F.LND_MOD.PMOD, listGet m (t.pmod.map (·.val)) m)]
      else a) s
    let s := s.setFlds [l] [(F.LND_STAT.STATE, if sat && t.loopback then 4 else if fixed then 3 else 2),
      (F.LND_STAT.PROTO, b2n (!torec && cxl)), (F.LND_STAT.RATE, rate), (F.LND_STAT.EPOCH, 0)]
    let s := s.moduleSet l
    let s := (List.range 4).foldl (fun a m => if a.mst l m = 1 then a.retireModule l m (if bitAt t.act.toNat m then 1 else 4) else a) s
    let s :=
      if torec && !fixed && !sat && s.bit F.LND_CTL.FLREQ [l] && decide (8 ≤ s.bring.step) then
        s.post 0x0608 0x08 partNone (4 * l) l 4
      else s
    (s.downIfNone l).cohRestart l

/-- TRAINING_COMPLETE. -/
def execTrainingComplete (l : Fin 8) (t : Training) (s : State) : Res := onCore s fun s =>
  if s.lstate l.val = 1 then s.trained l.val t else s

/-! ### Planned changes (R398, R399, R403) -/

/-- The half of a lane: data lanes 0-63, redundant lanes 64-67, two for each half (R375). -/
def laneHalf (lane : Nat) : Nat := if lane < 64 then lane / 32 else (lane - 64) / 2

/-- R398: what a failed lane asks for; none where the module does not use the lane. -/
def State.lanePlan (s : State) (l m lane : Nat) : Option Change :=
  let st := s.mst l m
  let h := laneHalf lane
  let used := st == 2 || (st == 3 && h == 0) || (st == 4 && h == 1)
  if !used then none
  else
    let other := s.failedIn l m (1 - h) + s.redIn l m (1 - h)
    let mine := s.failedIn l m h + s.redIn l m h
    let c : Change := ⟨true, false, m, 2, 0, 1, lane, st, false, false, false⟩
    if s.lstate l ≠ 3 ∧ mine ≤ 2 then some { c with kind := 1 }
    else if other = 0 then some { c with kind := 0, half := 1 - h }
    else some c

/-- R399: a change would leave a landing with through-sailing partitions below three module equivalents. -/
def State.tooFew (s : State) (l m : Nat) : Bool :=
  let own := match s.mst l m with | 2 => 2 | 3 | 4 => 1 | _ => 0
  !(s.boundParts l).isEmpty && decide (s.capHalf l - own < 6)

/-- The kind that RTREQ carries: 0 degradation, 1 retrain, 2 retirement and 3 return; 4 a retrain and 5 a retirement that no
failed lane asks for (R399). (log 33, DESIGN CHOICE) -/
def Change.code (c : Change) : Nat := if c.cause = 0 ∧ (c.kind = 1 ∨ c.kind = 2) then c.kind + 3 else c.kind

/-- R399: a change that no failed lane asks for, and that would take too much from through-sailing partitions. -/
def State.refuses (s : State) (l : Nat) (c : Change) : Bool :=
  c.cause == 0 && (c.kind == 1 || c.kind == 2) && s.tooFew l c.m

/-- R403: the next waiting change of a landing is requested, where none is in progress. The module goes by the partner's number
for it (R377). (log 33, DESIGN CHOICE) -/
def State.nextChange (s : State) (l : Nat) : State :=
  let k := s.lnd l
  match k.chg, k.wait with
  | none, c :: r =>
    if !k.partner.isEmpty then s
    else
      -- a need that a failed lane gave is evaluated again
      let again := if c.cause = 1 ∧ c.kind ≠ 3 ∧ c.lane < 68 then s.lanePlan l c.m c.lane else some c
      match again with
      | some c =>
        (s.modLand l (fun k => { k with chg := some { c with acked := false, sealed := false }, wait := r })).emit
          (.rtreq l s.pos (s.fld F.LND_MOD.PMOD [l, c.m]) c.code)
      | none => s.modLand l (fun k => { k with wait := r })
  | _, _ => s

/-- A change this die wants joins those that wait. -/
def State.wantChange (s : State) (l : Nat) (c : Change) : State :=
  (s.modLand l (fun k => { k with wait := k.wait ++ [c] })).nextChange l

/-- The change in progress ends without being made; a command ends with a result. -/
def State.dropChange (s : State) (l res : Nat) : State :=
  match (s.lnd l).chg with
  | some c =>
    let s := s.modLand l (fun k => { k with chg := none })
    let s := if c.cmd then s.rtEnd l res else s
    s.nextChange l
  | none => s

/-- A module leaves its landing to retrain; NRT counts it. -/
def State.takeOut (s : State) (l : Nat) (c : Change) : State :=
  let s := (s.setFld F.LND_MOD.MST [l, c.m] 6).incFld F.LND_MOD.NRT [l, c.m] 1
  s.modLand l (fun k => { k with retr := k.retr ++ [{ c with kind := 3, acked := false, sealed := false }] })

/-- The landing re-stripes: a new EPOCH, beside which the capacity of the old one is kept for the frames that carry it
(R399). -/
def State.flipEpoch (s : State) (l : Nat) : State :=
  let cap := s.capHalf l
  (s.setFld F.LND_STAT.EPOCH [l] (1 - s.fld F.LND_STAT.EPOCH [l])).modLand l (fun k => { k with wasCap := cap })

/-- R399 step 3: a planned change is made: the landing re-stripes. -/
def State.makeChange (s : State) (l : Nat) (c : Change) : State :=
  let s := s.flipEpoch l
  let done := fun (s : State) => if c.cmd then s.rtEnd l 0 else s
  match c.kind with
  | 0 =>
    let s := (s.setFld F.LND_MOD.MST [l, c.m] (3 + c.half % 2)).moduleSet l
    done (s.post 0x0603 0x08 partNone (4 * l + c.m) (c.half % 2) (s.capHalf l))
  | 1 => ((s.takeOut l c).moduleSet l).downIfNone l
  | 2 => done ((s.retireModule l c.m (if c.cause = 0 then 5 else c.cause)).downIfNone l)
  | _ =>
    let s := s.modLand l (fun k => { k with retr := k.retr.filter (fun x => x.m != c.m) })
    let s := if c.clear then ((s.setFld F.LND_FAIL.FAIL [l, c.m] 0).setFld F.LND_MOD.RUSED [l, c.m] 0).modLand l (fun k =>
        { k with redFail := SMap.set 0 k.redFail c.m 0 }) else s
    let s := s.setFld F.LND_MOD.MST [l, c.m] c.back
    let s :=
      if c.cause = 1 then
        let h := laneHalf c.lane
        let n := s.failedIn l c.m h + s.redIn l c.m h
        let s := s.incFld F.LND_MOD.RUSED [l, c.m] 1
        s.post 0x0602 0x08 partNone (4 * l + c.m) c.lane (64 + 2 * h + min 1 (n - 1))
      else s
    done (s.moduleSet l)

/-- R399: the change of a landing that both ends agreed before the seal is made in RECON. -/
def State.reconLanding (s : State) (l : Nat) : State :=
  let s := match (s.lnd l).capNext with
    | some b => (s.modLand l (fun k => { k with capNext := none })).takeCap l b false
    | none => s
  match (s.lnd l).chg with
  | some c =>
    if !(c.acked && c.sealed) then s
    else if s.refuses l c then s.dropChange l 1
    else ((s.modLand l (fun k => { k with chg := none })).makeChange l c).nextChange l
  | none => s

/-- The states of the modules after a planned change (R399 step 2). -/
def State.newSet (s : State) (l : Nat) (c : Change) : List Nat :=
  (List.range 4).map (fun m =>
    if m ≠ c.m then s.mst l m
    else match c.kind with | 0 => 3 + c.half % 2 | 1 => 6 | 2 => 5 | _ => c.back)

/-- R399 step 2: both ends agree the new module set for the next tide that is not yet sealed: the set, the new EPOCH and the
tide. (log 33, DESIGN CHOICE) -/
def State.agreeChange (s : State) (l : Nat) (c : Change) : State :=
  let n := s.period + (if s.fld F.TDE_TSTAT.STATE [] ≤ 1 then 1 else 2)
  s.emit (.agree l n (1 - s.fld F.LND_STAT.EPOCH [l]) (s.newSet l c))

/-- The seal of a tide: what both ends have agreed is made in its RECON (R399 step 2). -/
def State.sealLandings (s : State) : State :=
  lands8.foldl (fun a l => match (a.lnd l).chg with
    | some c => if c.acked then a.modLand l (fun k => { k with chg := some { c with sealed := true } }) else a
    | none => a) s

/-- RTREQ (R403): the partner asks for a change of a module. (log 33, DESIGN CHOICE) -/
def execRtreq (l : Fin 8) (pos : BitVec 6) (m : Fin 4) (kind : Fin 6) (s : State) : Res := onCore s fun s =>
  let l := l.val
  if s.lstate l ≠ 2 ∧ s.lstate l ≠ 3 then s
  else
    let base := if kind.val < 4 then kind.val else kind.val - 3
    let cause := if kind.val < 3 then 1 else 0
    let theirs : Change :=
      let h := if s.failedIn l m.val 0 = 0 then 0 else 1
      let r := (s.lnd l).retr.find? (fun c => c.m == m.val)
      match r with
      | some c => { c with own := false, kind := base, cause := cause, acked := true, sealed := false }
      | none => ⟨false, false, m.val, base, h, cause, 0, if base = 3 then 2 else s.mst l m.val, false, true, false⟩
    if s.refuses l theirs then s.emit (.rtnak l)
    else match (s.lnd l).chg with
    | none => (s.modLand l (fun k => { k with chg := some theirs })).emit (.rtack l)
    | some c =>
      if !c.own || c.acked then s.emit (.rtnak l)
      else if pos.toNat = s.pos then (s.dropChange l 2).post 0x0608 0x08 partNone (4 * l) l 6
      else if s.pos < pos.toNat then s
      else
        let s := s.modLand l (fun k => { k with
          chg := some theirs, wait := if c.cmd then k.wait else c :: k.wait })
        let s := if c.cmd then s.rtEnd l 2 else s
        (s.post 0x0609 0x08 partNone (4 * l) l pos.toNat).emit (.rtack l)

/-- RTACK (R403): the partner accepts the change this die asked for. (log 1, DESIGN CHOICE) -/
def execRtack (l : Fin 8) (s : State) : Res := onCore s fun s =>
  match (s.lnd l.val).chg with
  | some c =>
    if c.own && !c.acked then (s.modLand l.val (fun k => { k with chg := some { c with acked := true } })).agreeChange l.val c
    else s
  | none => s

/-- RTNAK (R403): the partner refuses it. (log 33, DESIGN CHOICE) -/
def execRtnak (l : Fin 8) (s : State) : Res := onCore s fun s =>
  match (s.lnd l.val).chg with
  | some c => if c.own && !c.acked then s.dropChange l.val 1 else s
  | none => s

/-- RTREQ_TIMEOUT (R511): no answer in 2 ms. -/
def execRtreqTimeout (l : Fin 8) (s : State) : Res := onCore s fun s =>
  match (s.lnd l.val).chg with
  | some c => if c.own && !c.acked then s.dropChange l.val 3 else s
  | none => s

/-- R399, R404, R405: a write of LND_RTCMD: OP 1 RETRAIN, 2 RETIRE, 3 RESTORE of module `m`. -/
def State.rtcmd (s : State) (q : Requester) (l op m : Nat) : State :=
  if !isFw q then s.deny q (regAddr .LND_RTCMD [l])
  else if s.bit F.LND_RTCMD.BUSY [l] then s.status stBusy
  else
    let s := (s.setFlds [l] [(F.LND_RTCMD.MOD, m), (F.LND_RTCMD.OP, 0)]).status stOk
    let st := s.mst l m
    let c : Change := ⟨true, true, m, op, 0, 0, 0, st, false, false, false⟩
    let go := fun (s : State) => s.setFlds [l] [(F.LND_RTCMD.BUSY, 1), (F.LND_RTCMD.OP, op), (F.LND_RTCMD.RES, 0)]
    if s.lstate l ≠ 2 ∧ s.lstate l ≠ 3 then s.setFld F.LND_RTCMD.RES [l] 3
    else if op = 1 ∧ carries st then
      if s.tooFew l m then s.setFld F.LND_RTCMD.RES [l] 1 else (go s).wantChange l { c with kind := 1 }
    else if op = 2 ∧ carries st then
      if s.tooFew l m then s.setFld F.LND_RTCMD.RES [l] 1 else (go s).wantChange l { c with kind := 2 }
    else if op = 3 ∧ carries st then
      if s.tooFew l m then s.setFld F.LND_RTCMD.RES [l] 1
      else (go s).wantChange l { c with kind := 1, back := 2, clear := true }
    else if op = 3 ∧ st ≠ 6 then (go s).takeOut l { c with back := 2, clear := true }
    else s.setFld F.LND_RTCMD.RES [l] 3

/-- RTCMD_RETRAIN. -/
def execRtcmdRetrain (q : Requester) (l : Fin 8) (m : Fin 4) (s : State) : Res := onCore s (fun s => s.rtcmd q l.val 1 m.val)
/-- RTCMD_RETIRE. -/
def execRtcmdRetire (q : Requester) (l : Fin 8) (m : Fin 4) (s : State) : Res := onCore s (fun s => s.rtcmd q l.val 2 m.val)
/-- RTCMD_RESTORE. -/
def execRtcmdRestore (q : Requester) (l : Fin 8) (m : Fin 4) (s : State) : Res := onCore s (fun s => s.rtcmd q l.val 3 m.val)

/-- MODULE_RETRAIN_COMPLETE (R399 step 4): the module returns at a later tide. -/
def execModuleRetrainComplete (l : Fin 8) (m : Fin 4) (s : State) : Res := onCore s fun s =>
  let k := s.lnd l.val
  if s.mst l.val m.val = 6 ∧ k.chg.all (fun c => c.m != m.val) ∧ k.wait.all (fun c => c.m != m.val) then
    match k.retr.find? (fun c => c.m == m.val) with
    | some c => if c.own then s.wantChange l.val c else s
    | none => s
  else s

/-- RETRAIN_TIMEOUT (R399): the module is retired. -/
def execRetrainTimeout (l : Fin 8) (m : Fin 4) (s : State) : Res := onCore s fun s =>
  let l := l.val
  if s.mst l m.val = 6 then
    if (s.lnd l).retr.any (fun c => c.m == m.val) then (((s.dropModule l m.val).retireModule l m.val 3).nextChange l) else s
  else s

/-- MODULE_LOCK_LOSS (R400): the module is retired at once, what was agreed for it is dropped, and the landing re-stripes. -/
def execModuleLockLoss (l : Fin 8) (m : Fin 4) (s : State) : Res := onCore s fun s =>
  let l := l.val
  let st := s.mst l m.val
  if st = 1 ∨ st = 6 ∨ carries st then
    let s := if carries st then s.flipEpoch l else s
    (((s.dropModule l m.val).retireModule l m.val 4).downIfNone l).nextChange l
  else s

/-- PARTNER_RETRAIN (R403): a retrain that the partner of a CXL landing begins, and its end. -/
def execPartnerRetrain (l : Fin 8) (m : Fin 4) (done : Bool) (s : State) : Res := onCore s fun s =>
  let l := l.val
  let st := s.mst l m.val
  let k := s.lnd l
  if !done then
    if carries st ∧ (s.lstate l = 2 ∨ s.lstate l = 3) then
      ((s.setFld F.LND_MOD.MST [l, m.val] 6).modLand l (fun k => { k with partner := k.partner ++ [m.val * 8 + st] })).moduleSet l
        |>.downIfNone l
    else s
  else
    match k.partner.find? (fun x => x / 8 == m.val) with
    | some x =>
      let s := s.modLand l (fun k => { k with partner := k.partner.filter (fun y => y / 8 != m.val) })
      ((s.setFld F.LND_MOD.MST [l, m.val] (x % 8)).moduleSet l).nextChange l
    | none => s

/-- ADAPTER_RETRY (R404, R441): an ordinary-mode flit is sent again. -/
def execAdapterRetry (l : Fin 8) (s : State) : Res := onCore s fun s =>
  if s.lstate l.val = 2 then s.incFld F.LND_CNT.RETRY [l.val] 1 else s

/-! ### Lane errors (R397) -/

/-- R397, R398: errors of a lane are counted; a growth of LTHR in a tide period marks the lane failed, and asks for a change.
(log 5, DESIGN CHOICE; log 32, DESIGN CHOICE) (log 5, DESIGN CHOICE; log 32, DESIGN CHOICE) -/
def State.laneErr (s : State) (l m lane n : Nat) : State :=
  let i := 64 * m + lane
  let f := match i % 4 with
    | 0 => F.LND_LERR.CNT0 | 1 => F.LND_LERR.CNT1 | 2 => F.LND_LERR.CNT2 | _ => F.LND_LERR.CNT3
  let s := if lane < 64 then s.incFld f [l, i / 4] n else s
  let key := 128 * m + lane
  let old := SMap.get 0 (s.lnd l).perr key
  let s := s.modLand l (fun k => { k with perr := SMap.set 0 k.perr key (old + n) })
  let thr := max 1 (s.fld F.LND_THR.LTHR [l])
  if old < thr ∧ thr ≤ old + n ∧ !s.laneMarked l m lane then
    let s := (s.markLane l m lane).post 0x0601 0x08 partNone (4 * l + m) lane (old + n)
    match s.lanePlan l m lane with
    | some c => s.wantChange l c
    | none => s
  else s

/-- LANE_ERROR: of a data lane (0-63) or a redundant lane (64-67); or the redundancy of the module's forwarded clock, valid,
track or sideband lanes (68-71) is spent, and the module is retired (R397). (log 32, DESIGN CHOICE) -/
def execLaneError (l : Fin 8) (m : Fin 4) (lane : Fin 72) (n : Nat) (s : State) : Res := onCore s fun s =>
  let l := l.val
  let m := m.val
  if s.lstate l < 2 ∨ s.lstate l = 4 ∨ !carries (s.mst l m) then s
  else if lane.val < 68 then s.laneErr l m lane.val n
  else s.wantChange l ⟨true, false, m, 2, 0, 2, lane.val, s.mst l m, false, false, false⟩

/-- R397: the eye monitor's worst sample of a module: below EYEMIN it counts as an error of its lane. -/
def State.eyeSample (s : State) (l m mui lane : Nat) : State :=
  let s := s.setFld F.LND_MOD.EYE [l, m] (min 4095 mui)
  if mui < s.fld F.LND_THR.EYEMIN [l] && decide (2 ≤ s.lstate l) && s.lstate l != 4 && carries (s.mst l m) then
    s.laneErr l m (lane % 64) 1
  else s

/-! ### MEM messages (R383, R384) and CXL.mem (R373) -/

/-- The answer to a request on the landing it came by. -/
def State.answer (s : State) (l : Nat) (h : Header) (opc : Nat) (data : Bytes) : State :=
  s.sendOn l (s.hdr 0 opc h.src.toNat 0 0 (units16 data.length) h.tag.toNat 0) data

/-- An ERR with its CODE. -/
def State.answerErr (s : State) (l : Nat) (h : Header) (code : Nat) : State := s.answer l h 0xF (leBytes 16 code)

/-- The remote write that a BWR makes: ADDR has the BERTH layout of R319. -/
def bwrWrite (h : Header) (data : Bytes) : RemoteWrite :=
  let a := h.addr.toNat
  ⟨bits a 32 16, bits a 25 7, bits a 0 25, data, .land, h.src, h.part.toNat, h.gen⟩

/-- MEM_BWR (R384): WACK where the write lands or is STALE, else ERR DENIED. (log 34, DESIGN CHOICE) -/
def execMemBwr (l : Fin 8) (h : Header) (data : Bytes) (s : State) : Res := onCore s fun s =>
  let l := l.val
  if !s.torec l then s
  else if s.badMessage l h then s.dropMsg l h
  else if h.cls != 0 || h.opc != 2 then s
  else if h.poi then (s.took l h).answerErr l h 3
  else
    let s := s.took l h
    let w := bwrWrite h data
    if !s.enabled w.cluster then s.answerErr l h 5
    else
      match s.judgeWrite w with
      | .inl g => (s.landWrite w g).answer l h 9 []
      | .inr r => if r = 0 then (s.dropWrite w r).answer l h 9 [] else (s.dropWrite w r).answerErr l h 5

/-- MEM_UNSUPPORTED_REQUEST (R384): every other request is answered ERR UNSUP. -/
def execMemUnsupportedRequest (l : Fin 8) (h : Header) (s : State) : Res := onCore s fun s =>
  if !s.torec l.val then s
  else if s.badMessage l.val h then s.dropMsg l.val h
  else if h.cls != 0 || (h.opc != 0 && h.opc != 1) then s
  else (s.took l.val h).answerErr l.val h 1

/-- MEM_RDR (R383): read data; a poisoned payload ends the piece as a memory error (R329). -/
def execMemRdr (l : Fin 8) (h : Header) (data : Bytes) (s : State) : Res := onCore s fun s =>
  if !s.torec l.val then s
  else if s.badMessage l.val h then s.dropMsg l.val h
  else
    let s := s.answered l.val h.tag.toNat
    if h.poi then s.readPoison h.tag.toNat else s.readData h.tag.toNat true data

/-- MEM_WACK (R383). -/
def execMemWack (l : Fin 8) (h : Header) (s : State) : Res := onCore s fun s =>
  if !s.torec l.val then s
  else if s.badMessage l.val h then s.dropMsg l.val h
  else (s.answered l.val h.tag.toNat).writeEnd h.tag.toNat false

/-- MEM_ERR (R384): any ERR ends the sender's piece with MEMERR, and TERR counts it. -/
def execMemErr (l : Fin 8) (h : Header) (_code : Byte) (s : State) : Res := onCore s fun s =>
  if !s.torec l.val then s
  else if s.badMessage l.val h then s.dropMsg l.val h
  else ((s.incFld F.LND_CNT.TERR [l.val] 1).answered l.val h.tag.toNat).accessErr h.tag.toNat

/-- CXL_NDR_CMP (R373). -/
def execCxlNdrCmp (l : Fin 8) (tag : BitVec 16) (error : Bool) (s : State) : Res := onCore s fun s =>
  if s.cxlUp l.val then
    let s := s.answered l.val tag.toNat
    if error then s.accessErr tag.toNat else s.writeEnd tag.toNat false
  else s

/-- CXL_DRS_MEMDATA (R373). -/
def execCxlDrsMemdata (l : Fin 8) (tag : BitVec 16) (poison : Bool) (data : Bytes) (s : State) : Res := onCore s fun s =>
  if !s.cxlUp l.val then s
  else
    let s := s.answered l.val tag.toNat
    if poison then s.readPoison tag.toNat else s.readData tag.toNat false data

/-- DBG_TRACE (R522): a TRACE addressed to an Askolo die is discarded without count; its credits return. -/
def execDbgTrace (l : Fin 8) (h : Header) (_data : Bytes) (s : State) : Res := onCore s fun s =>
  if s.torec l.val && !s.badMessage l.val h then s.took l.val h else s

/-! ### Fixed-latency frames (R390-R395, R242) -/

/-- The capacity of the striping epoch that a frame carries (R399 step 3). -/
def State.capOf (s : State) (l : Nat) (f : Frame) : Nat :=
  if bits f.trailer.toNat 71 1 = s.fld F.LND_STAT.EPOCH [l] then s.capHalf l else (s.lnd l).wasCap

/-- The positions of a frame. -/
def State.framePos (s : State) (l : Nat) (f : Frame) : Nat := s.slotsAt l (s.capOf l f)

/-- The bytes that FCHK covers: the data bytes of the frame and trailer bits 79:0. (log 35, DESIGN CHOICE) -/
def State.frameBytes (s : State) (l : Nat) (f : Frame) : Bytes :=
  let c := s.bytesAt l (s.capOf l f)
  slice (f.pos.flatMap (fun b => slice b 0 64)) 0 c ++ leBytes 10 f.trailer.toNat

/-- VP of position `i` (R391): 0 empty, 1 elastic unit, 2 slot word, 3 poisoned slot word. -/
def frameVp (f : Frame) (i : Nat) : Nat := bits f.trailer.toNat (48 + 2 * i) 2

/-- The cluster and gateway bound to a slot of a landing. -/
def State.slotGate (s : State) (l slot : Nat) : Option (Nat × Nat) :=
  ((s.boundParts l).flatMap (fun p => (s.part p).cls)).findSome? (fun c => (List.range 2).findSome? (fun g =>
    if s.fld F.CHN_GWCFG.MODE [c, g] = 2 ∧ s.fld F.CHN_GWCFG.LAND [c, g] = l ∧ s.fld F.CHN_GWCFG.SLOT [c, g] = slot then
      some (c, g) else none))

/-- R242: the delivery cycle of a word sent in a schedule cycle with low bits `tag`, at or after schedule cycle `now`. -/
def dueOf (now tag : Nat) : Nat := now + (tag + 24 + 256 - now % 256) % 256

/-- R242, R394: a slot word enters the slip buffer of its slot; one that is late, or finds the buffer full, is a sailing
fault (R231). (log 35, DESIGN CHOICE) -/
def State.slipIn (s : State) (l slot tag : Nat) (data : Bytes) (poison : Bool) : State :=
  match s.slotGate l slot with
  | none => s
  | some (c, g) =>
    let p := s.partOf c
    if !s.voyaging p then s
    else
      let now := (s.part p).scyc
      let due := dueOf now tag
      if now + 48 ≤ due ∨ 48 ≤ ((s.lnd l).slip.filter (fun w => w.slot == slot)).length then
        let ent := match s.sailing c now with | some (_, _, n) => n | none => 0
        s.sailFault p c 0x25 ((s.gwPort c g).getD 0) ent now (now + 12)
      else s.modLand l (fun k => { k with slip := k.slip ++ [⟨slot, due, data, poison, crc16 data⟩] })

/-- A hold of member `j` for the partition of control entry `k` has arrived (R243, R393): it is taken once, held 12 ccy from
now, and forwarded. (log 61, DEDUCED) -/
def State.holdIn (s : State) (l k j : Nat) : State :=
  let p := s.fld F.LND_FLCFG.PART [l, k]
  let key := 8 * k + j
  let s := s.modLand l (fun x => { x with holdRx := SMap.upd 0 x.holdRx key (· + 1) })
  if j = s.fld F.LND_FLCFG.SELF [l, k] ∨ SMap.get 0 (s.lnd l).holdRx key ≤ listGet 0 (s.part p).holdsIn j then s
  else
    let s := s.modPart p (fun q => { q with holdsIn := listMod q.holdsIn j (· + 1) })
    let s := if s.voyaging p then
        s.modPart p (fun q => { q with hold := listMod q.hold 12 (fun h => { h with causes := Nat.lor h.causes 32 }) })
      else s
    s.sendCtl p (some l) 16 0 (some j)

/-- A join notice of member `j` (R245, R448): taken once and forwarded. (log 61, DEDUCED) -/
def State.joinInCtl (s : State) (l k j : Nat) : State :=
  let p := s.fld F.LND_FLCFG.PART [l, k]
  let key := 64 + 8 * k + j
  let s := s.modLand l (fun x => { x with holdRx := SMap.upd 0 x.holdRx key (· + 1) })
  if j = s.fld F.LND_FLCFG.SELF [l, k] ∨ SMap.get 0 (s.lnd l).holdRx key ≤ listGet 0 (s.part p).joinsIn j then s
  else
    let s := s.modPart p (fun q => { q with joinsIn := listMod q.joinsIn j (· + 1) })
    let s := s.sendCtl p (some l) 8 0 (some j)
    s.resumeIf p

/-- A stop of member `j` (R448): the first one of a recovery stops the partition here, and is forwarded. (log 61, DEDUCED) -/
def State.stopIn (s : State) (l k j : Nat) : State :=
  let p := s.fld F.LND_FLCFG.PART [l, k]
  if j ≠ s.fld F.LND_FLCFG.SELF [l, k] ∧ s.voyaging p then
    (s.remoteStop p).sendCtl p (some l) 0 0 (some j)
  else s

/-- Decode control entry `k` of a frame. -/
def State.ctlIn (s : State) (l k w : Nat) : State :=
  if s.bit F.LND_FLCFG.VAL [l, k] then
    (List.range 8).foldl (fun a j =>
      let a := if bitAt w (16 + j) then a.holdIn l k j else a
      let a := if bitAt w (8 + j) then a.joinInCtl l k j else a
      if bitAt w j then a.stopIn l k j else a) s
  else s

/-- R392: an elastic unit: it acknowledges, and is counted received where it is the next. -/
def State.unitIn (s : State) (l : Nat) (b : Bytes) : State :=
  let link := leAt b 0 2
  let seq := link / 256
  let ack := link % 256
  s.modLand l (fun k =>
    let n := (findIdx (fun (u : Nat × Bytes) => u.1 == ack) k.unacked).map (· + 1)
    { k with unacked := k.unacked.drop (n.getD 0), rxSeq := if seq = (k.rxSeq + 1) % 256 then seq else k.rxSeq })

/-- R395: FCHK fails: slot words are poisoned, elastic units are lost, and every bound partition has a link fault. -/
def State.frameBad (s : State) (l : Nat) (f : Frame) : State :=
  let tag := bits f.trailer.toNat 72 8
  let s := s.incFld F.LND_CNT.FCHK [l] 1
  let s := s.post 0x0606 0x08 partNone (4 * l) l tag
  let s := (List.range (s.framePos l f)).foldl (fun a i =>
    if 2 ≤ frameVp f i then a.slipIn l i tag (slice (listGet [] f.pos i) 0 64) true else a) s
  (s.boundParts l).foldl (fun a p => a.contain p (((a.part p).cls.head?).getD 0) 6 0 0 0 0 .none) s

/-- FRAME_RECEIVE (R390-R395). -/
def execFrameReceive (l : Fin 8) (f : Frame) (s : State) : Res := onCore s fun s =>
  let l := l.val
  if s.lstate l ≠ 3 then s
  else if crc16 (s.frameBytes l f) ≠ f.fchk.toNat then s.frameBad l f
  else
    let w := f.trailer.toNat
    let tag := bits w 72 8
    let s := (s.ctlIn l 0 (bits w 0 24)).ctlIn l 1 (bits w 24 24)
    (List.range (s.framePos l f)).foldl (fun a i =>
      let b := slice (listGet [] f.pos i) 0 64
      match frameVp f i with
      | 0 => a
      | 1 => a.unitIn l b
      | v => a.slipIn l i tag b (v == 3)) s

/-- SLIP_DELIVERY (R242): the word of a slot whose delivery cycle this is reaches its gateway's input. -/
def execSlipDelivery (l : Fin 8) (slot : Fin 8) (s : State) : Res := onCore s fun s =>
  let l := l.val
  match s.slotGate l slot.val with
  | none => s
  | some (c, g) =>
    let p := s.partOf c
    let here := fun (w : SlipWord) => w.slot == slot.val && w.due == (s.part p).scyc
    match (s.lnd l).slip.find? here with
    | none => s
    | some w =>
      let s := s.modLand l (fun k => { k with slip := k.slip.filter (fun x => x != w) })
      s.modClu c (fun k => { k with links := k.links ++ [⟨(s.gwPort c g).getD 0, w.due, w.due, w.data, w.poison, w.crc, false⟩] })

/-- ELASTIC_RESEND (R392): the oldest unit has seen no acknowledgement for 64 ccy: sending begins again from it. -/
def execElasticResend (l : Fin 8) (s : State) : Res := onCore s fun s =>
  if s.lstate l.val = 3 then
    let s := (s.lnd l.val).unacked.foldl (fun a u => a.emit (.unit l.val u.1 (s.lnd l.val).rxSeq u.2)) s
    (s.modLand l.val (fun k => { k with txu := k.unacked })).flushLand l.val (s.lnd l.val).unacked.length
  else s

end Sys2Proof.Machine
end

