-- ==== Sys2Proof/Machine/Debug.lean ====
section
/-! DEFINITION. Trace (R519, R520, R522) and the lane capture (R521), with the commands that write LANE and HOLD records:
ACCUMULATE, ACCUMULATE AND DRAIN and HELD_CYCLE. -/

namespace Sys2Proof.Machine

/-- Records the trace buffer holds. -/
abbrev traceSlots : Nat := 2048

/-- Record `k` as the buffer holds it. (log 20, DESIGN CHOICE) -/
def State.traceRec (s : State) (k : Nat) : Bytes := SMap.get (List.replicate 32 0) s.trace (k % traceSlots)

/-- R522: while class 3 has the credits, the records a stream holds leave, one in a message. -/
def State.tracePump (s : State) : Nat → State
  | 0 => s
  | fuel + 1 =>
    match s.routeOf (s.fld F.DBG_CTL.TDST []) with
    | none => s
    | some l =>
      let k := s.lnd l
      if s.trHeld = 0 ∨ s.fld F.DBG_CTL.TMODE [] ≠ 2 ∨ listGet 0 k.cred 3 < 3 ∨ k.txq.any (fun e => e.1.cls.toNat == 3) ∨
          !bitAt (s.fld F.LND_STAT.CLS [l]) 3 then s
      else
        let i := s.fld F.DBG_TRSTAT.WIDX [] + 2 ^ 32 - s.trHeld
        let s := s.sendOn l (s.hdr 3 0 (s.fld F.DBG_CTL.TDST []) 0 0 2 0 0) (s.traceRec i)
        State.tracePump { s with trHeld := s.trHeld - 1 } fuel

/-- TRACE_RECORD (R519): a record enters the buffer, or finds no room and is counted. (log 57, DESIGN CHOICE) -/
def State.traceWrite (s : State) (b : Bytes) : State :=
  if !s.bit F.DBG_CTL.TREN [] then s
  else
    let room := match s.fld F.DBG_CTL.TMODE [] with
      | 0 => true
      | 1 => decide (s.trace.length < traceSlots)
      | 2 => decide (s.trHeld < traceSlots)
      | _ => false
    if room then
      let w := s.fld F.DBG_TRSTAT.WIDX []
      let s := { s with
        trace := SMap.put s.trace (w % traceSlots) (slice b 0 32)
        trHeld := if s.fld F.DBG_CTL.TMODE [] = 2 then s.trHeld + 1 else s.trHeld }
      (s.setFld F.DBG_TRSTAT.WIDX [] (w + 1)).tracePump s.trHeld
    else s.incFld F.DBG_TRSTAT.DROP [] 1

/-- A HOLD record of a held ccy. -/
def State.traceHold (s : State) (p causes ccy : Nat) : State :=
  if s.bit F.DBG_TRCFG.EHOLD [] && bitAt (s.fld F.DBG_TRCFG.HPART []) p then
    let total := match (s.part p).cls with | c :: _ => s.fld F.CHN_HOLDT.TOTAL [c] | [] => 0
    s.traceWrite (leBytes 1 1 ++ leBytes 1 p ++ leBytes 1 causes ++ [0] ++ leBytes 4 ccy ++ leBytes 8 total)
  else s

/-- A TIDE record of a new tide state. -/
def State.traceTide (s : State) (ccy : Nat) : State :=
  if s.bit F.DBG_TRCFG.ETIDE [] then
    s.traceWrite (leBytes 1 3 ++ leBytes 1 (s.fld F.TDE_TSTAT.STATE []) ++ leBytes 2 0 ++ leBytes 4 ccy ++
      leBytes 8 (s.fld F.TDE_TNUM.NUM []) ++ leBytes 4 (s.fld F.TDE_TSTAT.TERM []))
  else s

/-- The bytes of internal forms in the four slots of a record. -/
def formBytes (l : List IForm) : Bytes := slice (l.flatMap (fun i => leBytes 3 i.word)) 0 12

/-- R521: the capture is armed for this row, and its first schedule cycle has come. -/
def State.capturing (s : State) (c row cyc : Nat) : Bool :=
  let arm := if cyc < s.cap.1 then 0 else s.cap.1
  s.bit F.DBG_CAP.ARM [] && s.bit F.DBG_TRCFG.ELANE [] && s.bit F.DBG_CTL.TREN [] && s.fld F.DBG_CAP.CLIDX [] == c &&
    s.fld F.DBG_CAP.ROW [] == row && decide ((s.fld F.DBG_CAP.START [] + 2 ^ 32 - arm % 2 ^ 32) % 2 ^ 32 ≤ cyc - arm)

/-- R521: the record of the accumulate that the row of stroke `e` is about to run. -/
def State.captureRec (s : State) (c row : Nat) (e : Ent) : Bytes :=
  let core := s.fld F.DBG_CAP.CORE []
  let lane := s.fld F.DBG_CAP.LANE []
  let r := rowField e.word row
  let fa := fmtD (bits r 81 4)
  let n := pairElems fa (fmtD (bits r 77 4))
  let wk := s.walkCfg c (row * 12 + bits r 44 2)
  let pt := wk.point (s.word (baseReg (row * 3)) [c, core]) 0 (e.posOf (row * 12 + bits r 44 2))
  let af := (s.fetchElems c wk pt fa n).map (fun x => toIForm fa x.1 x.2)
  let bl := (SMap.get (BLane.mk none []) (s.clu c).blanes ((core * 2 + row) * 8 + lane)).advance
    (predTrue (bits r 30 5) e.first e.last)
  leBytes 1 2 ++ leBytes 1 (row * 128 + s.physLane c core row lane) ++ leBytes 1 core ++ leBytes 1 (accCell r e.idx0) ++
    leBytes 4 e.cyc ++ formBytes af ++ formBytes ((bl.cur.getD ⟨[], 0x7F⟩).forms.take n)

/-- R521: a record of the capture; after NCAP + 1 of them ARM clears. -/
def State.captureDone (s : State) (b : Bytes) : State :=
  let n := s.cap.2 + 1
  let s := { s.traceWrite b with cap := (s.cap.1, n) }
  if s.fld F.DBG_CAP.NCAP [] < n then s.setFld F.DBG_CAP.ARM [] 0 else s

/-- An accumulate with its capture. -/
def State.accumulateTraced (s : State) (c row op : Nat) (us : List Upset) : State :=
  match s.rowEnt c row op with
  | none => s
  | some e =>
    if s.slicesReady c row e && s.capturing c row e.cyc && bitAt e.mask (s.fld F.DBG_CAP.CORE []) then
      (s.accumulateCmd c row op us).captureDone (s.captureRec c row e)
    else s.accumulateCmd c row op us

/-- ACCUMULATE (R119). -/
def execAccumulate (c : Nat) (row : Row) (upsets : List Upset) (s : State) : Res :=
  onCore s (fun s => s.accumulateTraced c (rowNum row) 1 upsets)

/-- ACCUMULATE AND DRAIN (R122). -/
def execAccumulateAndDrain (c : Nat) (row : Row) (upsets : List Upset) (s : State) : Res :=
  onCore s (fun s => s.accumulateTraced c (rowNum row) 3 upsets)

/-- SAILING (R223): a ccy that the partition does not hold. -/
def execSailing (p : Fin 16) (fs : List Flip) (s : State) : Res := onCore s fun s =>
  let p := p.val
  if s.voyaging p then
    let r := if (s.part p).recDue then (s.runCcy p fs).refDown else s.runCcy p fs
    r.resetIf p
  else s

/-- HELD_CYCLE (R31, R32): the present ccy of the partition is held. A partition whose resumption waits takes its joins anew,
or counts the sailings it misses (R401). (log 49, DEDUCED) -/
def execHeldCycle (p : Fin 16) (ccy : BitVec 32) (s : State) : Res := onCore s fun s =>
  let p := p.val
  if s.voyaging p then
    let s := (s.examine p).decideHold p
    match (s.part p).hold with
    | h :: _ =>
      if h.causes = 0 then s
      else if (s.part p).recDue then ((s.heldCcy p).refDown).resetIf p else (s.heldCcy p).traceHold p h.causes ccy.toNat
    | [] => s
  else if (s.part p).live && s.fld F.FLT_PREC.STATE [p] == 4 then
    (if s.overdrawnStop p then s.countHold p 2 else s.resumeIf p).framesOut p (s.part p).scyc
  else s

/-- A write of DBG_CAP (R521, R526): ignored with a busy error while armed, but for one that clears ARM. -/
def State.capWrite (s : State) (q : Requester) (v : Nat) : State :=
  if !(s.rightsOf q).debug then s.deny q (regAddr .DBG_CAP [])
  else if s.bit F.DBG_CAP.ARM [] && bitAt v 63 then s.status stBusy
  else
    let s := s.setWord .DBG_CAP [] v
    let c := s.fld F.DBG_CAP.CLIDX []
    { s with cap := (if bitAt v 63 then s.scycOf c else s.cap.1, if bitAt v 63 then 0 else s.cap.2) }.status stOk

/-- CAPTURE_ARM (R521): a write of DBG_CAP that sets ARM. -/
def execCaptureArm (q : Requester) (v : W64) (s : State) : Res := onCore s fun s =>
  if bitAt v.toNat 63 then s.capWrite q v.toNat else s

/-- CRET (R382): credits of a class return; what waits for them leaves. -/
def execCret (l : Fin 8) (cls : Fin 6) (credits : BitVec 16) (s : State) : Res := onCore s fun s =>
  if s.torec l.val then
    let s := s.modLand l.val (fun k => { k with cred := listMod k.cred cls.val (· + credits.toNat) })
    (s.drainTx l.val cls.val (s.lnd l.val).txq.length).tracePump s.trHeld
  else s

end Sys2Proof.Machine
end

