-- ==== Sys2Proof/Machine/Crypto.lean ====
section
/-! DEFINITION. SHA-384 and the verification of ECDSA signatures over P-384, which R457, R488 and R489 name. Their
definitions are those of the published standards (FIPS 180-4, FIPS 186-4); the spec names them and does not repeat them. -/

namespace Sys2Proof.Machine

/-! ### SHA-384 -/

/-- Round constants 0 to 19. -/
def shaK0 : List Nat :=
  [0x428A2F98D728AE22, 0x7137449123EF65CD, 0xB5C0FBCFEC4D3B2F, 0xE9B5DBA58189DBBC,
   0x3956C25BF348B538, 0x59F111F1B605D019, 0x923F82A4AF194F9B, 0xAB1C5ED5DA6D8118,
   0xD807AA98A3030242, 0x12835B0145706FBE, 0x243185BE4EE4B28C, 0x550C7DC3D5FFB4E2,
   0x72BE5D74F27B896F, 0x80DEB1FE3B1696B1, 0x9BDC06A725C71235, 0xC19BF174CF692694,
   0xE49B69C19EF14AD2, 0xEFBE4786384F25E3, 0x0FC19DC68B8CD5B5, 0x240CA1CC77AC9C65]

/-- Round constants 20 to 39. -/
def shaK1 : List Nat :=
  [0x2DE92C6F592B0275, 0x4A7484AA6EA6E483, 0x5CB0A9DCBD41FBD4, 0x76F988DA831153B5,
   0x983E5152EE66DFAB, 0xA831C66D2DB43210, 0xB00327C898FB213F, 0xBF597FC7BEEF0EE4,
   0xC6E00BF33DA88FC2, 0xD5A79147930AA725, 0x06CA6351E003826F, 0x142929670A0E6E70,
   0x27B70A8546D22FFC, 0x2E1B21385C26C926, 0x4D2C6DFC5AC42AED, 0x53380D139D95B3DF,
   0x650A73548BAF63DE, 0x766A0ABB3C77B2A8, 0x81C2C92E47EDAEE6, 0x92722C851482353B]

/-- Round constants 40 to 59. -/
def shaK2 : List Nat :=
  [0xA2BFE8A14CF10364, 0xA81A664BBC423001, 0xC24B8B70D0F89791, 0xC76C51A30654BE30,
   0xD192E819D6EF5218, 0xD69906245565A910, 0xF40E35855771202A, 0x106AA07032BBD1B8,
   0x19A4C116B8D2D0C8, 0x1E376C085141AB53, 0x2748774CDF8EEB99, 0x34B0BCB5E19B48A8,
   0x391C0CB3C5C95A63, 0x4ED8AA4AE3418ACB, 0x5B9CCA4F7763E373, 0x682E6FF3D6B2B8A3,
   0x748F82EE5DEFB2FC, 0x78A5636F43172F60, 0x84C87814A1F0AB72, 0x8CC702081A6439EC]

/-- Round constants 60 to 79. -/
def shaK3 : List Nat :=
  [0x90BEFFFA23631E28, 0xA4506CEBDE82BDE9, 0xBEF9A3F7B2C67915, 0xC67178F2E372532B,
   0xCA273ECEEA26619C, 0xD186B8C721C0C207, 0xEADA7DD6CDE0EB1E, 0xF57D4F7FEE6ED178,
   0x06F067AA72176FBA, 0x0A637DC5A2C898A6, 0x113F9804BEF90DAE, 0x1B710B35131C471B,
   0x28DB77F523047D84, 0x32CAAB7B40C72493, 0x3C9EBE0A15C9BEBC, 0x431D67C49C100D4C,
   0x4CC5D4BECB3E42B6, 0x597F299CFC657E2A, 0x5FCB6FAB3AD6FAEC, 0x6C44198C4A475817]

/-- The initial hash value. -/
def sha384Init : List Nat :=
  [0xCBBB9D5DC1059ED8, 0x629A292A367CD507, 0x9159015A3070DD17, 0x152FECD8F70E5939,
   0x67332667FFC00B31, 0x8EB44A8768581511, 0xDB0C2E0D64F98FA7, 0x47B5481DBEFA4FA4]

/-- A 64-bit word. -/
abbrev w64 (x : Nat) : Nat := x % 2 ^ 64

/-- Rotate right. -/
def ror64 (x n : Nat) : Nat := Nat.lor (x >>> n) (w64 (x <<< (64 - n)))

/-- Exclusive or of three words. -/
def xor3 (a b c : Nat) : Nat := Nat.xor (Nat.xor a b) c

/-- One round: the working variables and the sliding 16 words of the message schedule. -/
def shaRound (a : List Nat × List Nat) (k : Nat) : List Nat × List Nat :=
  match a with
  | ([a, b, c, d, e, f, g, h], w :: ws) =>
    let s1 := xor3 (ror64 e 14) (ror64 e 18) (ror64 e 41)
    let ch := Nat.xor (Nat.land e f) (Nat.land (Nat.xor e (2 ^ 64 - 1)) g)
    let t1 := h + s1 + ch + k + w
    let s0 := xor3 (ror64 a 28) (ror64 a 34) (ror64 a 39)
    let mj := xor3 (Nat.land a b) (Nat.land a c) (Nat.land b c)
    let u1 := listGet 0 ws 13
    let u0 := listGet 0 ws 0
    let next := w + xor3 (ror64 u0 1) (ror64 u0 8) (u0 >>> 7) + listGet 0 ws 8 + xor3 (ror64 u1 19) (ror64 u1 61) (u1 >>> 6)
    ([w64 (t1 + s0 + mj), a, b, c, w64 (d + t1), e, f, g], ws ++ [w64 next])
  | x => x

/-- One block of 128 bytes. -/
def shaBlock (hs : List Nat) (blk : Bytes) : List Nat :=
  let ws := (List.range 16).map (fun i => beNat (slice blk (8 * i) 8))
  let r := (shaK0 ++ shaK1 ++ shaK2 ++ shaK3).foldl shaRound (hs, ws)
  (hs.zip r.1).map (fun p => w64 (p.1 + p.2))

/-- SHA-384 of a byte string. (log 19, PRESUMED) -/
def sha384 (bs : Bytes) : Bytes :=
  let n := bs.length
  let pad := (128 - (n + 17) % 128) % 128
  let m := bs ++ [0x80] ++ List.replicate pad 0 ++ beBytes 16 (8 * n)
  let hs := (List.range (m.length / 128)).foldl (fun a i => shaBlock a (slice m (128 * i) 128)) sha384Init
  (hs.take 6).flatMap (fun x => beBytes 8 x)

/-! ### ECDSA over P-384 -/

/-- The field prime. -/
def p384 : Nat := 2 ^ 384 - 2 ^ 128 - 2 ^ 96 + 2 ^ 32 - 1
/-- The order of the base point. -/
def p384n : Nat :=
  0xFFFFFFFFFFFFFFFFFFFFFFFFFFFFFFFFFFFFFFFFFFFFFFFFC7634D81F4372DDF581A0DB248B0A77AECEC196ACCC52973
/-- The curve coefficient b. -/
def p384b : Nat :=
  0xB3312FA7E23EE7E4988E056BE3F82D19181D9C6EFE8141120314088F5013875AC656398D8A2ED19D2A85C8EDD3EC2AEF
/-- The base point. -/
def p384g : Nat × Nat :=
  (0xAA87CA22BE8B05378EB1C71EF320AD746E1D3B628BA79B9859F741E082542A385502F25DBF55296C3A545E3872760AB7,
   0x3617DE4A96262C6F5D9E98BF9292DC29F8F41DBD289A147CE9DA3113B5F0B8C00A60B1CE1D7E819D7A431D7C90EA0E5F)

/-- `a ^ e` modulo `m`, over the low `n` bits of `e`. -/
def powMod (m : Nat) : Nat → Nat → Nat → Nat
  | 0, _, _ => 1
  | n + 1, a, e =>
    let r := powMod m n (a * a % m) (e / 2)
    if e % 2 = 1 then r * a % m else r

/-- The inverse modulo a prime. -/
def invMod (m a : Nat) : Nat := powMod m 384 (a % m) (m - 2)

/-- Subtraction modulo `m` of reduced numbers. -/
def subMod (m a b : Nat) : Nat := (a + (m - b % m)) % m

/-- A point in Jacobian coordinates; Z = 0 is the point at infinity. -/
abbrev JPoint := Nat × Nat × Nat

/-- Twice a point. -/
def JPoint.double (a : JPoint) : JPoint :=
  let (x, y, z) := a
  let m := p384
  if y = 0 ∨ z = 0 then (1, 1, 0)
  else
    let d := z * z % m
    let g := y * y % m
    let b := x * g % m
    let al := 3 * (subMod m x d * ((x + d) % m)) % m
    let x3 := subMod m (al * al % m) (8 * b % m)
    let z3 := subMod m (subMod m ((y + z) * (y + z) % m) g) d
    (x3, subMod m (al * subMod m (4 * b % m) x3 % m) (8 * (g * g % m) % m), z3)

/-- The sum of two points. -/
def JPoint.plus (a b : JPoint) : JPoint :=
  let m := p384
  let (x1, y1, z1) := a
  let (x2, y2, z2) := b
  if z1 = 0 then b
  else if z2 = 0 then a
  else
    let z11 := z1 * z1 % m
    let z22 := z2 * z2 % m
    let u1 := x1 * z22 % m
    let u2 := x2 * z11 % m
    let s1 := y1 * z2 % m * z22 % m
    let s2 := y2 * z1 % m * z11 % m
    if u1 = u2 then if s1 = s2 then a.double else (1, 1, 0)
    else
      let h := subMod m u2 u1
      let r := subMod m s2 s1
      let hh := h * h % m
      let hhh := h * hh % m
      let v := u1 * hh % m
      let x3 := subMod m (subMod m (r * r % m) hhh) (2 * v % m)
      (x3, subMod m (r * subMod m v x3 % m) (s1 * hhh % m), h * z1 % m * z2 % m)

/-- `k` times a point, over the low `n` bits of `k`. -/
def JPoint.times : Nat → Nat → JPoint → JPoint
  | 0, _, _ => (1, 1, 0)
  | n + 1, k, a =>
    let r := JPoint.times n (k / 2) a.double
    if k % 2 = 1 then r.plus a else r

/-- The signature (r, s) of a SHA-384 hash verifies under the public key (x, y). Each number is 48 bytes, most
significant first. (log 19, PRESUMED) -/
def ecdsaOk (hash sig key : Bytes) : Bool :=
  let r := beNat (slice sig 0 48)
  let t := beNat (slice sig 48 48)
  let x := beNat (slice key 0 48)
  let y := beNat (slice key 48 48)
  let m := p384
  let onCurve := decide (x < m) && decide (y < m) && y * y % m == (x * x % m * x + 3 * (m - x) + p384b) % m
  if onCurve && decide (0 < r) && decide (r < p384n) && decide (0 < t) && decide (t < p384n) then
    let w := invMod p384n t
    let q := (JPoint.times 384 (beNat hash * w % p384n) (p384g.1, p384g.2, 1)).plus
      (JPoint.times 384 (r * w % p384n) (x, y, 1))
    let zi := invMod m q.2.2
    q.2.2 != 0 && q.1 * (zi * zi % m) % m % p384n == r
  else false

end Sys2Proof.Machine
end

