-- ==== Sys2Proof/Machine/Dict.lean ====
section
/-! DEFINITION. The Vordor dictionary (R18, R19, R471-R475, R483): its entries, their types, rights and values. -/

namespace Sys2Proof.Machine

/-- Access codes of R473. -/
abbrev accConst : Nat := 0
abbrev accRo : Nat := 1
abbrev accRw : Nat := 2
abbrev accWo : Nat := 3
abbrev accRws : Nat := 4

/-- An entry: its type code (R472), access code, largest length in bytes, and default where it is a number. -/
structure OdEnt where
  ty : Nat
  acc : Nat
  maxlen : Nat
  dflt : Nat
  deriving DecidableEq, Repr

/-- Length of a numeric type; none for STR and BLOB (R472). -/
def tyLen (ty : Nat) : Option Nat :=
  match ty with
  | 1 => some 1 | 2 => some 2 | 3 | 5 | 7 => some 4 | 4 | 6 => some 8 | _ => none

/-- A numeric entry. -/
def num (ty acc dflt : Nat) : OdEnt := ⟨ty, acc, (tyLen ty).getD 0, dflt⟩
/-- A BLOB entry. -/
def blob (acc maxlen : Nat) : OdEnt := ⟨9, acc, maxlen, 0⟩

/-- Highest subindex of an index that exists (R471). -/
def odMax (ix : Nat) : Option Nat :=
  if 0x1210 ≤ ix ∧ ix ≤ 0x1217 then some 1
  else if 0x3020 ≤ ix ∧ ix ≤ 0x3027 then some 6
  else if 0x3110 ≤ ix ∧ ix ≤ 0x311F then some 1
  else if 0x4100 ≤ ix ∧ ix ≤ 0x410F then some 12
  else
    match ix with
    | 0x1000 => some 10 | 0x1100 => some 6 | 0x1101 => some 1 | 0x1102 => some 1 | 0x1103 => some 1 | 0x1200 => some 6
    | 0x1201 => some 4 | 0x2000 => some 1 | 0x2010 => some 2 | 0x2020 => some 10 | 0x2021 => some 36 | 0x2030 => some 3
    | 0x2040 => some 2 | 0x3010 => some 2 | 0x3030 => some 64 | 0x3100 => some 18 | 0x3120 => some 3 | 0x3200 => some 1
    | 0x4110 => some 5 | 0x4120 => some 4 | 0x4200 => some 6 | 0x4300 => some 64 | 0x4301 => some 36 | 0x4302 => some 32
    | 0x4303 => some 8 | 0x4304 => some 25 | 0x5000 => some 1 | 0x6000 => some 10 | 0x7001 => some 2 | 0x7002 => some 7
    | 0x7100 => some 32 | 0x7110 => some 1 | 0x7120 => some 2 | _ => none

/-- ILIM and IWEAR of rail `n`, as OD 0x2021 packs them (R408, R483). -/
def railDefault (n : Nat) : Nat :=
  if n ≤ 24 ∨ n = 34 then 340 * 2 ^ 16 + 400
  else if n = 25 then 1050 * 2 ^ 16 + 1200
  else if n ≤ 33 then 170 * 2 ^ 16 + 200
  else 20 * 2 ^ 16 + 20

/-- Identity and bring-up entries. -/
def odEnt1 (ix sub : Nat) : OdEnt :=
  match ix, sub with
  | 0x1000, 1 => num 2 accConst 0x0D47 | 0x1000, 2 => num 2 accConst 0 | 0x1000, 3 => ⟨8, accConst, 255, 0⟩
  | 0x1000, 4 => num 4 accConst 0 | 0x1000, 5 => num 2 accConst 0 | 0x1000, 6 => num 1 accRo 0xFF
  | 0x1000, 7 => num 1 accRo 0 | 0x1000, 8 => num 1 accRo 0 | 0x1000, 9 => num 3 accRo 0 | 0x1000, _ => num 3 accConst 0
  | 0x1100, 4 => num 2 accRo 0 | 0x1100, 5 => num 3 accRo 0 | 0x1100, 6 => num 3 accRo 0 | 0x1100, _ => num 1 accConst 0
  | 0x1101, _ => blob accConst 32784 | 0x1102, _ => blob accRw 32784 | 0x1103, _ => blob accRo 2500
  | 0x1200, 1 => num 1 accRw 0 | 0x1200, 2 => num 1 accRo 0 | 0x1200, 3 => num 2 accRo 0 | 0x1200, 4 => num 2 accRo 0
  | 0x1200, 5 => num 3 accRo 0 | 0x1200, _ => num 1 accRo 0
  | 0x1201, 1 => num 3 accWo 0 | 0x1201, 2 => num 1 accRo 0 | 0x1201, 3 => num 1 accRo 0xFF | 0x1201, _ => num 3 accRo 0
  | _, _ => blob accRw 512

/-- Configuration entries. -/
def odEnt2 (ix sub : Nat) : OdEnt :=
  match ix, sub with
  | 0x2000, _ => num 4 accRws 0 | 0x2010, 1 => num 3 accRws 50000 | 0x2010, _ => num 4 accRws 0
  | 0x2020, 1 => num 2 accRws 700 | 0x2020, 2 => num 2 accRws 900 | 0x2020, 3 => num 2 accRws 4000
  | 0x2020, 4 => num 2 accRws 1000 | 0x2020, 5 => num 1 accRws 105 | 0x2020, 6 => num 1 accRws 2
  | 0x2020, 7 => num 2 accRws 25 | 0x2020, 8 => num 2 accRws 300 | 0x2020, 9 => num 1 accRws 30
  | 0x2020, _ => num 1 accRws 1
  | 0x2021, n => num 3 accRws (railDefault (n - 1))
  | 0x2030, 1 => num 2 accRws 16 | 0x2030, 2 => num 2 accRws 150 | 0x2030, _ => num 3 accRws 500
  | _, 1 => num 1 accRws 80
  | _, _ => num 1 accRws 3

/-- Operational entries. -/
def odEnt3 (ix sub : Nat) : OdEnt :=
  if 0x3020 ≤ ix ∧ ix ≤ 0x3027 then
    match sub with
    | 1 => num 1 accRw 0 | 2 => num 1 accRws 3 | 3 => num 1 accRws 0 | 4 => num 1 accRws 2 | 5 => num 1 accWo 0
    | _ => num 1 accRo 0
  else if 0x3110 ≤ ix ∧ ix ≤ 0x311F then num 3 accRw 160
  else
    match ix, sub with
    | 0x3010, 1 => num 1 accRw 0 | 0x3010, _ => num 3 accRw 2000000
    | 0x3030, _ => num 1 accRws 0xFF
    | 0x3100, 4 => num 1 accRw 1 | 0x3100, 5 => num 1 accRw 1 | 0x3100, 6 => num 1 accRw 0xFF | 0x3100, 7 => num 1 accRw 0xFF
    | 0x3100, 8 => num 2 accRw 64 | 0x3100, 9 => num 3 accRw 0 | 0x3100, 10 => num 2 accRw 64 | 0x3100, 12 => num 2 accRw 0
    | 0x3100, 13 => num 4 accRw 0 | 0x3100, 14 => num 4 accRw 0 | 0x3100, 15 => num 3 accRw 0 | 0x3100, 16 => num 1 accRo 0
    | 0x3100, 17 => num 1 accRo 0 | 0x3100, 18 => num 1 accRo 0 | 0x3100, _ => num 1 accRw 0
    | 0x3120, 1 => num 3 accRw 0 | 0x3120, 2 => num 3 accRw 10 | 0x3120, _ => num 3 accRw 200
    | _, _ => num 3 accRw 1000

/-- Status entries. -/
def odEnt4 (ix sub : Nat) : OdEnt :=
  if 0x4100 ≤ ix ∧ ix ≤ 0x410F then
    match sub with
    | 1 => num 1 accRo 0 | 2 => num 2 accRo 0xFFFF | 3 => num 2 accRo 0 | 4 => num 3 accRo 0 | 5 => num 2 accRo 0
    | 6 => num 4 accRo 0 | 10 => num 2 accRo 0 | 11 => num 2 accRo 0 | _ => num 3 accRo 0
  else
    match ix, sub with
    | 0x4110, 5 => num 1 accRo 0 | 0x4110, _ => num 3 accRo 0
    | 0x4120, 1 => blob accRo 48 | 0x4120, 3 => num 1 accRo 0 | 0x4120, _ => num 4 accRo 0
    | 0x4200, 4 => blob accRo 5 | 0x4200, 5 => num 2 accRo 0 | 0x4200, 6 => num 3 accRo 1000 | 0x4200, _ => num 1 accRo 0
    | 0x4301, _ => num 3 accRo 0 | 0x4304, _ => num 1 accRo 0
    | 0x5000, _ => num 4 accRo 0
    | _, _ => num 2 accRo 0

/-- Log, update and security entries. -/
def odEnt6 (ix sub : Nat) : OdEnt :=
  match ix, sub with
  | 0x6000, 1 => num 4 accRw 0 | 0x6000, 2 => num 1 accRw 12 | 0x6000, 3 => num 4 accRo 0 | 0x6000, 4 => blob accRo 8192
  | 0x6000, 5 => num 4 accRw 0 | 0x6000, 6 => num 3 accRw 0 | 0x6000, 7 => num 1 accRo 0 | 0x6000, 8 => num 1 accWo 0
  | 0x6000, 9 => num 4 accRw 0 | 0x6000, _ => num 1 accRw 12
  | 0x7001, _ => blob accWo 196608
  | 0x7002, 1 => num 1 accRo 0 | 0x7002, 2 => num 1 accRw 0 | 0x7002, 3 => num 1 accWo 0 | 0x7002, 4 => num 3 accWo 0
  | 0x7002, 5 => num 1 accRo 0 | 0x7002, 6 => num 3 accRo 0 | 0x7002, _ => num 4 accRo 0
  | 0x7100, 1 => num 4 accRws 0xA0420780FFFF0000 | 0x7100, 2 => num 4 accRws 0xC0420780FFFF0000 | 0x7100, _ => num 4 accRws 0
  | 0x7110, _ => blob accRo 65535
  | _, 1 => blob accWo 48
  | _, _ => blob accRo 352

/-- The entry at an index and subindex; none where it does not exist (R471). -/
def odEnt (ix sub : Nat) : Option OdEnt :=
  match odMax ix with
  | none => none
  | some n =>
    if sub = 0 then some (num 1 accConst n)
    else if n < sub then none
    else if ix < 0x2000 then some (odEnt1 ix sub)
    else if ix < 0x3000 then some (odEnt2 ix sub)
    else if ix < 0x4000 then some (odEnt3 ix sub)
    else if ix < 0x6000 then some (odEnt4 ix sub)
    else some (odEnt6 ix sub)

/-- The right codes of an entry for reading and writing (R473, R474). -/
def odRights (ix sub : Nat) : Nat × Nat :=
  if ix / 0x100 = 0x10 ∨ ix = 0x7110 ∨ ix = 0x7120 then (0, if ix = 0x7120 ∧ sub = 1 then 0 else 6)
  else if (0x3110 ≤ ix ∧ ix ≤ 0x311F) ∨ (0x4100 ≤ ix ∧ ix ≤ 0x410F) then (4, 4)
  else if ix = 0x3100 then (1, 3)
  else if ix / 0x100 = 0x70 then (1, 5)
  else if 0xF000 ≤ ix then (6, 6)
  else (1, 2)

/-- R473, R474: a requester holds the right that a code names, for an entry of partition `p`. -/
def State.holds (s : State) (q : Requester) (code p : Nat) : Bool :=
  let r := s.rightsOf q
  match code with
  | 0 => true
  | 1 => r.any
  | 2 => r.dadmin
  | 3 => r.padmin
  | 4 => r.ofPart p || r.dadmin
  | 5 => r.update
  | _ => false

/-! ### Values -/

/-- A defect record as its 8 bytes (R437). -/
def recBytes (r : DefectRec) : Bytes := [r.kind, r.px, r.py, r.site, r.row, r.lane, r.src, 0]

/-- A defect map (R437). -/
def State.mapBlob (s : State) (kind : Nat) (recs : List DefectRec) : Bytes :=
  let f := s.fuses
  let cols := (f.dcol ++ List.replicate 5 0xFF).take 5
  let head := [1, BitVec.ofNat 8 kind] ++ leBytes 2 recs.length ++ [f.grade, f.drow] ++ cols ++ [0]
  let body := recs.flatMap recBytes
  head ++ leBytes 4 (crc32 (head ++ body)) ++ body

/-- The ring log, the oldest record first, filled with zeros (R484). (log 57, DESIGN CHOICE) -/
def State.ringLogBytes (s : State) : Bytes := slice (s.ringLog.reverse.flatMap eventBytes) 0 8192

/-- Sum over the clusters of the grade. -/
def State.sumClusters (s : State) (f : Nat → Nat) : Nat :=
  ((List.range 1250).filter s.enabled).foldl (fun a c => a + f c) 0

/-- Rows with a lane bypassed (R439). -/
def State.nbyp (s : State) : Nat :=
  s.regs.foldl (fun a e =>
    match (if 0x02000000 ≤ e.1 then findReg [.CLU_LMAP] ((e.1 - 0x02000000) % 0x4000) else none) with
    | some _ => a + (if fldOf F.CLU_LMAP.BYP_A e.2.toNat = 0xF then 0 else 1) + (if fldOf F.CLU_LMAP.BYP_B e.2.toNat = 0xF then 0 else 1)
    | none => a) 0

/-- A value stored in the dictionary: as last written, or the default. -/
def State.odStored (s : State) (ix sub : Nat) (e : OdEnt) : Bytes :=
  match SMap.find s.od (ix * 256 + sub) with
  | some b => b
  | none => match tyLen e.ty with | some n => leBytes n e.dflt | none => []

/-- FWVER of an image (R488). -/
def imgVer (img : Bytes) : Nat := leAt img 8 4

/-- Values of 0x1000-0x1FFF that the die finds (R439, R453, R495). -/
def State.odView1 (s : State) (ix sub : Nat) : Option Bytes :=
  let m := meshSize s.fuses.grade
  let valid := s.bit F.ID_STRAP.VALID []
  match ix, sub with
  | 0x1000, 2 => some (leBytes 2 s.fuses.grade.toNat)
  | 0x1000, 3 => some (asciiBytes "B0")
  | 0x1000, 4 => some (leBytes 8 s.fuses.serial.toNat)
  | 0x1000, 5 => some (leBytes 2 s.fuses.mfid.toNat)
  | 0x1000, 6 => some (leBytes 1 (if valid then s.pos else 0xFF))
  | 0x1000, 7 => some (leBytes 1 (s.fld F.ID_STRAP.ORIENT []))
  | 0x1000, 8 => some (leBytes 1 (s.fld F.ID_STRAP.HCAND []))
  | 0x1000, 9 => some (leBytes 4 (s.fld F.ID_VER.FWVER []))
  | 0x1000, 10 => some (leBytes 4 s.fuses.romver.toNat)
  | 0x1100, 1 => some [s.fuses.grade]
  | 0x1100, 2 => some (leBytes 1 m.1)
  | 0x1100, 3 => some (leBytes 1 m.2)
  | 0x1100, 4 => some (leBytes 2 (s.sumClusters (fun c => s.fld F.CLU_CSITE.PERM [c])))
  | 0x1100, 5 => some (leBytes 4 (if bitAt s.bring.doneMask 5 then s.sumClusters (fun c => s.fld F.CLU_CSITE.NSPARE [c]) else 0))
  | 0x1100, 6 => some (leBytes 4 s.nbyp)
  | 0x1101, 1 => some (s.mapBlob 0 s.fuses.recs)
  | 0x1102, 1 => some ((SMap.find s.od (0x1102 * 256 + 1)).getD (s.mapBlob 1 s.fmap))
  | 0x1103, 1 => some ((List.range 1250).flatMap (fun c =>
      if s.enabled c then leBytes 1 (s.physOf c).1 ++ leBytes 1 (s.physOf c).2 else [0xFF, 0xFF]))
  | 0x1200, 1 => some (leBytes 1 s.bring.step)
  | 0x1200, 2 => some (leBytes 1 s.bring.status)
  | 0x1200, 3 => some (leBytes 2 s.bring.cause)
  | 0x1200, 4 => some (leBytes 2 s.bring.doneMask)
  | 0x1200, 5 => some (leBytes 4 s.bring.elapsed)
  | 0x1200, 6 => some (leBytes 1 s.bring.ldown)
  | 0x1201, 2 => some (leBytes 1 (s.fld F.CLK_HELM_1.HSTATE []))
  | 0x1201, 3 => some (leBytes 1 (if s.fld F.CLK_HELM_1.HSTATE [] = 0 then 0xFF else s.fld F.CLK_HELM_1.HPOS []))
  | 0x1201, 4 => some (leBytes 4 (s.fld F.CLK_HELM_0.HMAXT []))
  | _, _ => none

/-- The byte of LND_ROUTE for position `q`, as OD 0x3030 gives it. -/
def State.routeByte (s : State) (q : Nat) : Nat :=
  let w := s.word .LND_ROUTE [q / 8]
  if bitAt w (8 * (q % 8) + 7) then bits w (8 * (q % 8)) 3 else 0xFF

/-- PSTATE of R370. -/
def State.pstate (s : State) (p : Nat) : Nat :=
  let f := s.front p
  if f.dissolving then 5
  else if !s.exists_ p then
    match s.pcmd with
    | some c => if c.op = 2 ∧ c.part = p ∧ !c.cls.isEmpty then 5 else 0
    | none => 0
  else if !f.priv then 1
  else if !(s.part p).cls.isEmpty then 2
  else if f.waiting then 3
  else 4

/-- Values of 0x4100 + p (R370). -/
def State.partValue (s : State) (p sub : Nat) : Bytes :=
  let f := s.front p
  match sub with
  | 1 => leBytes 1 (s.pstate p)
  | 2 => leBytes 2 (if (s.part p).cls.isEmpty then 0xFFFF else f.x0 + 256 * f.y0)
  | 3 => leBytes 2 (f.w + 256 * f.h)
  | 4 => leBytes 4 (s.fld F.FRY_PRATE.RATE [p] * 150 * s.fld F.FRY_SCALE.SCALE [] / 65536)
  | 5 => leBytes 2 (min f.resid 0xFFFF)
  | 6 => leBytes 8 (listGet 0 f.figs 0)
  | 7 => leBytes 4 (listGet 0 f.figs 1)
  | 8 => leBytes 4 (listGet 0 f.figs 2)
  | 9 => leBytes 4 (listGet 0 f.figs 3)
  | 10 => leBytes 2 f.gq.length
  | 11 => leBytes 2 (if f.gbatch.isEmpty then 0 else 256 * f.gbatch.sum / f.gbatch.length)
  | _ => leBytes 4 (min f.gqovf (2 ^ 32 - 1))

/-- Values of 0x3000-0x4FFF that the die finds. -/
def State.odView3 (s : State) (ix sub : Nat) : Option Bytes :=
  if 0x3020 ≤ ix ∧ ix ≤ 0x3027 then
    let l := ix - 0x3020
    match sub with
    | 1 => some (leBytes 1 (s.fld F.LND_CTL.EN [l]))
    | 2 => some (leBytes 1 (s.fld F.LND_CTL.TOREC [l] + 2 * s.fld F.LND_CTL.CXL [l]))
    | 3 => some (leBytes 1 (s.fld F.LND_CTL.FLREQ [l]))
    | 4 => some (leBytes 1 (s.fld F.LND_CTL.RMAX [l]))
    | 6 => some (leBytes 1 (s.fld F.LND_RTCMD.RES [l]))
    | _ => none
  else if 0x4100 ≤ ix ∧ ix ≤ 0x410F then if sub = 0 then none else some (s.partValue (ix - 0x4100) sub)
  else
    match ix, sub with
    | 0x3030, 0 => none
    | 0x3030, n => some (leBytes 1 (s.routeByte (n - 1)))
    | 0x4110, 1 => some (leBytes 4 s.gbw)
    | 0x4110, 2 => some (leBytes 4 s.dbw)
    | 0x4110, 3 => some (leBytes 4 (150 * s.rateSum))
    | 0x4110, 4 => some (leBytes 4 (s.fld F.FRY_SCALE.SCALE []))
    | 0x4110, 5 => some (leBytes 1 ((List.range 16).filter (fun p => s.exists_ p && (s.front p).priv)).length)
    | 0x4200, 1 => some (leBytes 1 (s.fld F.MGT_STAT.LOAD []))
    | 0x4200, 2 => some (leBytes 1 s.mp.loadMax)
    | 0x4200, 3 => some (leBytes 1 (s.fld F.MGT_STAT.SHED []))
    | 0x4200, 5 => some (leBytes 2 s.dictQueued)
    | 0x4200, 6 => some (leBytes 4 (s.odNat 0x3200 1 1000 * (if s.bit F.MGT_STAT.SHED [] then 2 else 1)))
    | _, _ => none

/-- Values of 0x6000-0x7FFF that the die finds. The attestation report is `REPORT` of the security block. -/
def State.odView6 (s : State) (ix sub : Nat) : Option Bytes :=
  match ix, sub with
  | 0x6000, 4 => some s.ringLogBytes
  | 0x6000, 9 => some (leBytes 8 (s.fld F.FE_EVBASE.BASE [] * 4096))
  | 0x6000, 10 => some (leBytes 1 (s.fld F.FE_EVBASE.LSIZE []))
  | 0x7002, 1 => some (leBytes 1 (s.fld F.MGT_STAT.SLOT []))
  | 0x7002, 6 => some (leBytes 4 s.fuses.svnmin.toNat)
  | 0x7002, 7 => some (leBytes 4 (imgVer s.mp.slotA) ++ leBytes 4 (imgVer s.mp.slotB))
  | 0x7110, 1 => some s.fuses.cert
  | _, _ => none

/-- Configuration values that stand in a register (R408, R428, R483). -/
def State.odView2 (s : State) (ix sub : Nat) : Option Bytes :=
  let get := fun (n : Nat) (f : Fld) => some (leBytes n (min (s.fld f []) (2 ^ (8 * n) - 1)))
  match ix, sub with
  | 0x2010, 1 => get 4 F.TDE_TCTL.TPER
  | 0x2020, 1 => get 2 F.PWR_CTL.PENV
  | 0x2020, 2 => get 2 F.PWR_CTL.PBURST
  | 0x2020, 3 => get 2 F.PWR_CTL.QMAX
  | 0x2020, 4 => get 2 F.PWR_CTL.QRE
  | 0x2020, 5 => get 1 F.PWR_THCFG.TTHR
  | 0x2020, 6 => get 1 F.PWR_THCFG.THYST
  | 0x2020, 7 => get 2 F.PWR_THCFG.TSTEP
  | 0x2020, 8 => get 2 F.PWR_THCFG.TFLOOR
  | 0x2020, 9 => get 1 F.PWR_DIDT.DDTHR
  | 0x2020, 10 => get 1 F.PWR_DIDT.DIEN
  | 0x2021, 0 => none
  | 0x2021, n => some (leBytes 2 (s.fld F.PWR_RAIL_LIMIT.ILIM [n - 1]) ++ leBytes 2 (s.fld F.PWR_RAIL_LIMIT.IWEAR [n - 1]))
  | 0x2040, 1 => get 1 F.FLT_CTL.RWD
  | 0x2040, 2 => get 1 F.FLT_CTL.RLIM
  | _, _ => none

/-- The present value of an entry: a configuration value that waits for a tide is seen by a read (R476, R483). (log 42, DESIGN CHOICE) -/
def State.odValue (s : State) (ix sub : Nat) (e : OdEnt) : Bytes :=
  let k := ix * 256 + sub
  if e.acc = accWo then match tyLen e.ty with | some n => List.replicate n 0 | none => []
  else
    match SMap.find s.cfgLate k, SMap.find s.cfgNext k with
    | some b, _ => b
    | none, some b => b
    | none, none =>
      let v := if ix < 0x2000 then s.odView1 ix sub else if ix < 0x3000 then s.odView2 ix sub
        else if ix < 0x5000 then s.odView3 ix sub else s.odView6 ix sub
      match v with
      | some b => b
      | none => if sub = 0 then leBytes 1 e.dflt else
          if ix = 0x4120 ∧ sub = 1 then slice (s.odStored ix sub e) 0 48
          else if ix = 0x4200 ∧ sub = 4 then slice (s.odStored ix sub e) 0 5
          else s.odStored ix sub e

/-! ### The configuration digest (R457) -/

/-- The configuration-class entries the digest covers, in order. -/
def cfgEntries : List (Nat × Nat) :=
  [(0x2010, 2), (0x2020, 10), (0x2021, 36), (0x2030, 3), (0x2040, 2)].flatMap (fun p =>
    (List.range (p.2 + 1)).map (fun k => (p.1, k)))

/-- The value of a configuration entry that the next RECON leaves in force. -/
def State.cfgValue (s : State) (ix sub : Nat) (e : OdEnt) : Bytes :=
  if sub = 0 then leBytes 1 e.dflt
  else
    match SMap.find s.cfgNext (ix * 256 + sub) with
    | some b => b
    | none => (s.odView2 ix sub).getD (s.odStored ix sub e)

/-- The byte string that R457 hashes. -/
def State.digestBytes (s : State) : Bytes :=
  cfgEntries.flatMap (fun p =>
    match odEnt p.1 p.2 with
    | some e =>
      let v := s.cfgValue p.1 p.2 e
      leBytes 2 p.1 ++ leBytes 1 p.2 ++ leBytes 1 e.ty ++ leBytes 4 v.length ++ v
    | none => [])

/-- The configuration digest. -/
def State.digest (s : State) : Bytes := sha384 s.digestBytes

/-- EPOCH, as the next RECON leaves it (R457). -/
def State.epochNext (s : State) : Nat :=
  match SMap.find s.cfgNext (0x2000 * 256 + 1) with | some b => leNat b | none => s.odNat 0x2000 1 0

/-- R483: a configuration value takes effect. -/
def State.applyCfg (s : State) (ix sub : Nat) (b : Bytes) : State :=
  let v := leNat b
  let put := fun (f : Fld) (idx : List Nat) (s : State) => s.setFld f idx (min v (2 ^ f.w - 1))
  let every := fun (f : Fld) => (List.range 8).foldl (fun a l => put f [l] a) { s with od := SMap.put s.od (ix * 256 + sub) b }
  match ix, sub with
  | 0x2010, 1 => put F.TDE_TCTL.TPER [] s
  | 0x2020, 1 => put F.PWR_CTL.PENV [] s
  | 0x2020, 2 => put F.PWR_CTL.PBURST [] s
  | 0x2020, 3 => put F.PWR_CTL.QMAX [] s
  | 0x2020, 4 => put F.PWR_CTL.QRE [] s
  | 0x2020, 5 => put F.PWR_THCFG.TTHR [] s
  | 0x2020, 6 => put F.PWR_THCFG.THYST [] s
  | 0x2020, 7 => put F.PWR_THCFG.TSTEP [] s
  | 0x2020, 8 => put F.PWR_THCFG.TFLOOR [] s
  | 0x2020, 9 => put F.PWR_DIDT.DDTHR [] s
  | 0x2020, 10 => put F.PWR_DIDT.DIEN [] s
  | 0x2021, n =>
    s.setFlds [n - 1] [(F.PWR_RAIL_LIMIT.ILIM, min (v % 2 ^ 16) 4095), (F.PWR_RAIL_LIMIT.IWEAR, min (v / 2 ^ 16) 4095)]
  | 0x2030, 1 => every F.LND_THR.LTHR
  | 0x2030, 2 => every F.LND_THR.EYEMIN
  | 0x2030, 3 => every F.LND_THR.RTTMO
  | 0x2040, 1 => put F.FLT_CTL.RWD [] s
  | 0x2040, 2 => put F.FLT_CTL.RLIM [] s
  | _, _ => { s with od := SMap.put s.od (ix * 256 + sub) b }

/-- CONFIG_ENTRY_APPLY (R483): in RECON, the values that wait take effect, and those written since the seal wait for the
next tide. (log 42, DESIGN CHOICE) -/
def State.applyNext (s : State) : State :=
  -- a MP that runs no firmware applies nothing: the values wait on
  if 2 ≤ s.mpst then { s with cfgNext := s.cfgLate.foldl (fun m e => SMap.put m e.1 e.2) s.cfgNext, cfgLate := [] }
  else
    let s := s.cfgNext.foldl (fun a e => a.applyCfg (e.1 / 256) (e.1 % 256) e.2) s
    { s with cfgNext := s.cfgLate, cfgLate := [] }

end Sys2Proof.Machine
end

