-- ==== Sys2Proof/Machine/Tide.lean ====
section
/-! DEFINITION. Tides (R261-R275), the helm (R453-R458), the package budget (R424-R427) and the CCLK check (R37). -/

namespace Sys2Proof.Machine

/-! ### Terms used below -/

/-- STATE of TDE_TSTAT: 0 RUN, 1 ARRIVED, 2 SEALED, 3 RECON, 4 RAMP. -/
def State.tst (s : State) : Nat := s.fld F.TDE_TSTAT.STATE []

/-- A new tide state, with its trace record (R519). -/
def State.setTst (s : State) (st ccy : Nat) : State := (s.setFld F.TDE_TSTAT.STATE [] st).traceTide ccy

/-- The tide that ends the present period. -/
def State.nextTide (s : State) : Nat := if s.tide.begun then s.fld F.TDE_TNUM.NUM [] + 1 else 0

/-- The term of the current helm. -/
def State.term (s : State) : Nat := s.fld F.TDE_TSTAT.TERM []

/-- HSTATE: 0 none, 1 follower, 2 helm, 3 helm-fenced (R453). -/
def State.hstate (s : State) : Nat := s.fld F.CLK_HELM_1.HSTATE []

/-- HMEMB: the positions admitted at the HELM step (R453). -/
def State.members_ (s : State) : List Nat :=
  let w := s.odNat 0x2010 2 0
  (List.range 64).filter (bitAt w)

/-- Change what the helm holds. -/
def State.modHelm (s : State) (f : Helm → Helm) : State := { s with helm := f s.helm }

/-- Change what the tide unit holds. -/
def State.modTide (s : State) (f : Tide → Tide) : State := { s with tide := f s.tide }

/-- R451: the reference output is driven by a candidate until the HELM step completes, and then by the helm; never by a
helm-fenced die (R455). -/
def State.setDrv (s : State) : State :=
  let on := s.bit F.CLK_REF.HCAND [] && (s.hstate == 2 || (s.hstate != 3 && !bitAt s.bring.doneMask 9))
  s.setFld F.CLK_REF.DRV [] (b2n on)

/-! ### Claims (R454-R456) -/

/-- A SEAL of a tide reaches the helm this die is. (log 39, DEDUCED) -/
def State.sealIn (s : State) (src tide : Nat) : State :=
  s.modHelm (fun h => { h with seals := SMap.set 0 h.seals src (max (SMap.get 0 h.seals src) (tide + 1)) })

/-- Send SEAL of a tide to the current helm. -/
def State.sendSeal (s : State) (tide : Nat) : State :=
  if s.hstate = 2 then s.sealIn s.pos tide else s.syn 1 (s.fld F.CLK_HELM_1.HPOS []) (leBytes 16 tide)

/-- A REPORT as its 32 bytes. -/
def reportBytes (r : TollReport) : Bytes :=
  leBytes 8 r.tide.toNat ++ leBytes 4 r.guse.toNat ++ leBytes 4 r.demand.toNat ++ leBytes 4 r.energy.toNat ++
    leBytes 4 r.stall.toNat ++ leBytes 4 r.bub.toNat ++ [r.flags, 0, 0, 0]

/-- The helm takes a REPORT: the last of each die. -/
def State.reportIn (s : State) (src : Nat) (r : TollReport) : State :=
  s.modHelm (fun h => { h with reps := (src, r) :: h.reps.filter (fun x => x.1 != src) })

/-- Send the REPORT to the helm: a duty of firmware, which pauses in a swap or a restart (R469, R491). -/
def State.sendReport (s : State) (r : TollReport) : State :=
  if 2 ≤ s.mpst then s
  else if s.hstate = 2 then s.reportIn s.pos r
  else
    let b := reportBytes r
    s.sendTo (s.hdr 5 0 (s.fld F.CLK_HELM_1.HPOS []) 0 0 (units16 b.length) 0 0) b

/-- R456: on accepting a term, a die sends SEAL of its pending tide where it is SEALED, else of its last released tide. (log 39, DEDUCED) -/
def State.sealNewHelm (s : State) : State :=
  let s := if s.tst = 2 then s.sendSeal s.nextTide else if s.tide.begun then s.sendSeal (s.fld F.TDE_TNUM.NUM []) else s
  -- R424, R425: with it goes the REPORT of that tide
  match s.tide.rep with
  | some r => s.sendReport r
  | none => s

/-- R454: a claim received or made is resolved against the current term. -/
def State.resolveClaim (s : State) (t q : Nat) : State :=
  let tc := s.term
  let qc := s.fld F.CLK_HELM_1.HPOS []
  let s := s.setFld F.CLK_HELM_0.HMAXT [] (max t (s.fld F.CLK_HELM_0.HMAXT []))
  if tc < t ∨ (t = tc ∧ q < qc) then
    let own := q == s.pos
    let was := s.hstate
    let hs := if own then 2 else if 2 ≤ was then 3 else 1
    let s := s.setFlds [] [(F.TDE_TSTAT.TERM, t), (F.CLK_HELM_0.TERM, t), (F.CLK_HELM_1.HPOS, q), (F.CLK_HELM_1.HSTATE, hs)]
    let s := s.modHelm (fun h => { h with
      seals := [], rel := 0, ntc := 0, again := false, reps := if own then h.reps else [], grants := [], begun := false })
    let s : State := { s with pow := { s.pow with grant := none } }
    let s := s.post 0x080A 0x12 partNone locNone t q
    let s := if was = 2 ∧ hs = 3 then s.post 0x080B 0x12 partNone locNone t q else s
    (s.setDrv.touch 144).sealNewHelm.cohPump
  else if t = tc ∧ q = qc then s
  else
    let s := s.incFld F.CLK_HELM_1.CLREJ [] 1
    if s.hstate = 2 ∧ !s.helm.again then
      (s.syn 4 0x3F (leBytes 16 (tc + s.pos * 2 ^ 32))).modHelm (fun h => { h with again := true })
    else s

/-- R453, R454: a write of CLAIM: refused on a die that is no candidate, and for a term not above HMAXT. -/
def State.claimWrite (s : State) (q : Requester) (t : Nat) : State :=
  if !s.holds q 2 0 then s.deny q (0x1201 * 256 + 1)
  else if !s.bit F.ID_STRAP.HCAND [] || !s.bit F.ID_STRAP.VALID [] || decide (t ≤ s.fld F.CLK_HELM_0.HMAXT []) then
    s.status stInvalid
  else ((s.syn 4 0x3F (leBytes 16 (t + s.pos * 2 ^ 32))).resolveClaim t s.pos).status stOk

/-- CLAIM (R454). -/
def execClaim (q : Requester) (term : BitVec 32) (s : State) : Res := onCore s (fun s => s.claimWrite q term.toNat)

/-- SYN_CLAIM (R454). -/
def execSynClaim (term : BitVec 32) (pos : BitVec 6) (s : State) : Res := onCore s (fun s => s.resolveClaim term.toNat pos.toNat)

/-! ### Notice and arrival (R261-R264) -/

/-- The package budget and its bounds, in mW: PKGB, GSTEP, GMIN, PENV (R425, R427). -/
def State.pkgb (s : State) : Nat := 1000 * s.odNat 0x3120 1 0
def State.gstep (s : State) : Nat := 1000 * s.odNat 0x3120 2 10
def State.gmin (s : State) : Nat := 1000 * s.odNat 0x3120 3 200
def State.penv (s : State) : Nat := 1000 * min 700 (s.fld F.PWR_CTL.PENV [])

/-- R425: the grant every die receives at the HELM step. -/
def State.firstGrant (s : State) : Nat :=
  if s.pkgb = 0 then s.penv else min s.penv (s.pkgb / max 1 s.members_.length)

/-- Send a grant that applies at a tide. -/
def State.sendGrant (s : State) (tide : Nat) (x : Nat × Nat) : State :=
  if x.1 = s.pos then { s with pow := { s.pow with grant := some (tide, x.2) } }
  else
    let data := leBytes 8 tide ++ leBytes 4 x.2 ++ leBytes 4 s.term
    s.sendTo (s.hdr 5 1 x.1 0 0 (units16 data.length) 0 0) data

/-- The helm's grants go out for a tide. -/
def State.sendGrants (s : State) (tide : Nat) : State := s.helm.grants.foldl (fun a x => a.sendGrant tide x) s

/-- HELM_TIDE_NOTICE (R261): the helm broadcasts the notice of its next tide, once; with that of tide 0 go the first
grants. -/
def execHelmTideNotice (s : State) : Res := onCore s fun s =>
  let n := s.nextTide
  if s.hstate ≠ 2 ∨ n < s.helm.ntc then s
  else
    let s := (s.syn 0 0x3F (leBytes 16 (n + s.term * 2 ^ 64))).modHelm (fun h => { h with ntc := n + 1 })
    if n = 0 then
      (s.modHelm (fun h => { h with
        grants := s.members_.map (fun q => (q, s.firstGrant)), pkgb := s.pkgb, begun := true })).sendGrants 0
    else s

/-- SYN_NOTICE (R262): the notice of the tide that ends this period, from the current helm. (log 39, DEDUCED) -/
def execSynNotice (tide : W64) (term : BitVec 32) (s : State) : Res := onCore s fun s =>
  if tide.toNat = s.nextTide ∧ term.toNat = s.term then s.modTide (fun t => { t with noticed := true }) else s

/-- R262: a partition has arrived: it waits at its TIDE stroke, or has no voyage in progress. -/
def State.arrived (s : State) (p : Nat) : Bool :=
  let q := s.part p
  !q.live || q.tideAt.isSome

/-- The list of expected counts that a pilot's TIDE stroke names (R166, R268). -/
def State.tideEntries (s : State) (c : Nat) : List (Nat × Nat) :=
  match (s.clu c).tideList with
  | some (h, off, n) =>
    if s.resident c h && decide (off + 16 * n ≤ s.berthLen c h) then
      let st := (s.clu c).store (s.berthStore c h)
      (List.range n).map (fun i =>
        let b := st.bytes (s.berthBase c h + off + 16 * i) 16
        (leAt b 0 8, leAt b 8 8))
    else []
  | none => []

/-- The lists of every partition that waits, in ascending order of cluster index. -/
def State.copyLists (s : State) : State :=
  (List.range 16).foldl (fun a p =>
    if (a.part p).live then
      (a.part p).cls.foldl (fun a c =>
        let es := a.tideEntries c
        let a := a.modClu c (fun k => { k with tideList := none })
        a.modTide (fun t => { t with lists := t.lists ++ [(p, c, es)] })) a
    else a) s

/-- DIE_ARRIVAL (R263). -/
def execDieArrival (ccy : BitVec 32) (s : State) : Res := onCore s fun s =>
  if s.tst = 0 ∧ s.tide.noticed ∧ (List.range 16).all s.arrived then
    (s.modTide (fun t => { t with lists := [] })).copyLists.setTst 1 ccy.toNat
  else s

/-- TLATE_EXPIRY (R264): a partition that has not arrived is stopped; every pilot records code 0x30. -/
def execTlateExpiry (p : Fin 16) (s : State) : Res := onCore s fun s =>
  let p := p.val
  if s.tst = 0 ∧ s.tide.noticed ∧ !s.arrived p then
    let q := s.part p
    let c := q.cls.head?.getD 0
    let pc := s.fld F.CLU_PSTAT.PC [c]
    let s := forClusters q.cls (fun c a => a.setWord .CLU_PFAULT [c]
      (0x30 * 2 ^ 56 + a.fld F.CLU_PSTAT.PC [c] * 2 ^ 32 + q.scyc % 2 ^ 32)) s
    let s := s.stopVoyage p ⟨0x10, c, 0x30, 0, pc, q.scyc⟩
    let s := s.modTide (fun t => { t with late := p :: t.late })
    (s.post 0x0404 0x14 p c s.nextTide pc).cohPump
  else s

/-! ### Seal and release (R265, R266) -/

/-- R265: every effect of the period is acknowledged. (log 60, DEDUCED) -/
def State.acked (s : State) : Bool :=
  engines.all (fun e => (s.eng e).fly.isEmpty && !(s.eng e).chunk) &&
    (List.range 16).all (fun p => s.fld F.FE_PSTAT.STATE [p] != 7) &&
    (!s.bit F.FE_CTL.EN [] || (s.evq.isEmpty && s.evOut.isEmpty)) && s.tide.sent.isEmpty &&
    -- no descriptor is ending, and every SELFENQ of the period is copied (R266, R301)
    engines.all (fun e => (s.ending e).isNone) && (List.range 16).all (fun p => (s.part p).selfq.isEmpty)

/-- The largest count of missed sailings of a partition in the period. -/
def State.maxMiss (s : State) : Nat := s.pow.miss.foldl (fun a e => max a e.2) 0

/-- The toll REPORT of this die (R424); `tail` is what it has drawn since its last control step, in µJ. (log 38, DESIGN CHOICE) -/
def State.tollReport (s : State) (tide tail : Nat) : TollReport :=
  { tide := BitVec.ofNat 64 tide, guse := BitVec.ofNat 32 (s.fld F.PWR_GRANT.GRANT []), demand := BitVec.ofNat 32 s.pow.demand,
    energy := BitVec.ofNat 32 ((s.fld F.PWR_DENERGY.E [] - s.pow.energyAt + tail) / 1000),
    stall := BitVec.ofNat 32 (s.tide.stall + s.maxMiss), bub := BitVec.ofNat 32 s.pow.bub,
    flags := BitVec.ofNat 8 (b2n (s.pow.q == 0) + 2 * b2n (s.fld F.PWR_TSTAT.TLVL [] != 0) + 4 * b2n (!s.pow.clamped.isEmpty)) }

/-- Broadcast the epoch and digest that the coming RECON leaves (R457, R458). (log 38, DESIGN CHOICE) -/
def State.sendDigest (s : State) : State :=
  let d := (s.epochNext, s.digest)
  (s.modTide (fun t => { t with dig := d })).syn 5 0x3F (leBytes 8 d.1 ++ leBytes 8 0 ++ d.2)

/-- TIDE_SEAL (R265): the die is SEALED, and sends SEAL, its REPORT and its DIGEST. -/
def execTideSeal (sinceStepUj : Nat) (ccy : BitVec 32) (s : State) : Res := onCore s fun s =>
  if s.tst = 1 ∧ s.acked then
    let n := s.nextTide
    let s := s.sealLandings.setTst 2 ccy.toNat
    let r := s.tollReport n sinceStepUj
    (((s.modTide (fun t => { t with rep := some r })).sendSeal n).sendReport r).sendDigest
  else s

/-- SYN_SEAL (R266): the helm takes the SEAL of a die. -/
def execSynSeal (src : BitVec 6) (tide : W64) (s : State) : Res := onCore s fun s =>
  let s := s.giveBackTo src.toNat 4 16
  if s.hstate = 2 then s.sealIn src.toNat tide.toNat else s

/-- HELM_RELEASE (R266, R456): the helm releases the lowest tide sealed once every member has sealed it or a later one, and
no tide of its term twice. (log 39, DEDUCED) -/
def execHelmRelease (s : State) : Res := onCore s fun s =>
  let ms := s.members_
  let sealOf := fun q => SMap.get 0 s.helm.seals q
  match (ms.map sealOf).min? with
  | none => s
  | some m =>
    if s.hstate ≠ 2 ∨ m ≤ s.helm.rel then s
    else
      let k := s.odNat 0x3010 2 2000000
      let k := if k = s.fld F.CLK_CCLK.CUR [] then 0 else k
      (s.syn 2 0x3F (leBytes 16 ((m - 1) + s.term * 2 ^ 64 + k * 2 ^ 96))).modHelm (fun h => { h with rel := m })

/-- The counts and marks of a tide period begin anew. -/
def State.newPeriod (s : State) : State :=
  { s with
    once := []
    pow := { s.pow with bub := 0, miss := [], energyAt := s.fld F.PWR_DENERGY.E [] }
    mp := { s.mp with loadMax := 0 }
    helm := { s.helm with again := false }
    tide := { s.tide with noticed := false, late := [], stalled := false, recon := false }
    land := lands8.foldl (fun m l => SMap.upd Land.empty m l (fun k => { k with perr := [] })) s.land }

/-- A partition that waits at the barrier takes the tide; a through-sailing one sends its join notice (R245). -/
def State.takeTide (s : State) (p : Nat) : State :=
  let q := s.part p
  if q.live ∧ q.tideAt.isSome then
    let s := s.setFld F.TDE_PTIDE.NTIDE [p] ((s.fld F.TDE_PTIDE.NTIDE [p] + 1) % 2 ^ 32)
    if (s.members p).isEmpty then s
    else (s.modPart p (fun q => { q with joinsSent := q.joinsSent + 1 })).sendCtl p none 8 0 none
  else s

/-- R409: the core voltage of an operating point in kHz, in mV. (log 79, DESIGN CHOICE) -/
def coreMv (khz : Nat) : Nat :=
  if 2000000 ≤ khz then 750 else if 1600000 ≤ khz then 680 else if 1200000 ≤ khz then 620 else 600

/-- R409: the regulators bring the core rails to a voltage. (log 79, DESIGN CHOICE) -/
def State.setCoreMv (s : State) (mv : Nat) : State :=
  (List.range 25).foldl (fun a n => a.setFld F.PWR_RAIL_STAT.V [n] mv) s

/-- SYN_RELEASE (R265): a SEALED die takes a release of its tide with the current term; one with another term is counted. (log 40, DEDUCED) -/
def execSynRelease (tide : W64) (term : BitVec 32) (cclk : BitVec 32) (stall : Nat) (ccy : BitVec 32) (s : State) : Res :=
  onCore s fun s =>
  if s.tst ≠ 2 ∨ tide.toNat ≠ s.nextTide then s
  else if term.toNat ≠ s.term then s.incFld F.TDE_RAMP.RIGN [] 1
  else
    let s := s.setFlds [] [(F.TDE_TNUM.NUM, tide.toNat), (F.CLK_CCLK.NEXT, cclk.toNat)]
    let s := s.newPeriod.modTide (fun t => { t with begun := true, cclk := cclk.toNat, stall := stall, relTerm := term.toNat })
    -- R409: the voltage rises before a higher CCLK applies
    let s := if s.fld F.CLK_CCLK.CUR [] < cclk.toNat then s.setCoreMv (coreMv cclk.toNat) else s
    let s := (List.range 16).foldl (fun a p => a.takeTide p) (s.touch 144)
    s.setTst 3 ccy.toNat

/-- TIDE_STALL (R265): no valid release in TLATE × 1,024 ccy: the event is posted once. (log 1, DESIGN CHOICE) -/
def execTideStall (s : State) : Res := onCore s fun s =>
  if s.tst = 2 ∧ !s.tide.stalled then
    (s.post 0x0405 0x14 partNone locNone s.nextTide s.tide.relTerm).modTide (fun t => { t with stalled := true })
  else s

/-! ### Reconciliation (R268-R271) -/

/-- What reconciliation has found so far: the tallies named by partition, and the partitions and clusters of a MIS. -/
structure Recon where
  s : State
  named : List (Nat × Nat)
  mis : List (Nat × Nat)

/-- A tally is shown in TDE_RCLAST. -/
def State.rcLast (s : State) (t p kind : Nat) : State :=
  s.setFlds [] [(F.TDE_RCLAST.TALLY, t), (F.TDE_RCLAST.PART, p), (F.TDE_RCLAST.KIND, kind),
    (F.TDE_RCLAST.TIDE, s.fld F.TDE_TNUM.NUM [] % 2 ^ 32)]

/-- R268, R270: an entry with a reserved bit set, of a tally outside the partition's range, or of one named before. -/
def Recon.skips (r : Recon) (p w0 w1 : Nat) : Bool :=
  let t := bits w0 48 16
  bits w0 24 19 != 0 || bits w1 56 8 != 0 || bits w1 24 8 != 0 || !r.s.tallyOf p t || r.named.contains (p, t)

/-- R269-R271: one entry of the list of partition `p` in cluster `c`. -/
def Recon.entry (p c : Nat) (r : Recon) (e : Nat × Nat) : Recon :=
  let w0 := e.1
  let w1 := e.2
  let t := bits w0 48 16
  let n := r.s.fld F.TDE_TNUM.NUM []
  if r.skips p w0 w1 then
    { r with s := (r.s.incFld F.TDE_RCERR.DUP [] 1).rcLast t p 3, named := (p, t) :: r.named }
  else
    let s := r.s
    let v := s.fld F.TDE_TAL.VALUE [t]
    let prod := s.fld F.TDE_TCNT.PROD [t]
    let cons := s.fld F.TDE_TCNT.CONS [t]
    let clip : Int := (s.fld F.TDE_TCFG.START [t] : Int) + prod - cons - v
    let mis := (bitAt w0 47 && prod != bits w1 32 24) || (bitAt w0 46 && cons != bits w1 0 24)
    let drf := bitAt w0 45 && !mis && v != bits w0 0 24 && !(bitAt w0 44 && clip != 0)
    let s := if mis then
        (((s.setFld F.TDE_TAL.MIS [t] 1).incFld F.TDE_RCERR.MIS [] 1).rcLast t p 1).post 0x0401 0x14 p t n 0
      else s
    let s := if drf then
        (((s.setFld F.TDE_TAL.DRF [t] 1).incFld F.TDE_RCERR.DRF [] 1).rcLast t p 2).post 0x0402 0x14 p t n 0
      else s
    let s := if bitAt w0 43 then s.setFld F.TDE_TAL.VALUE [t] (bits w0 0 24) else s
    { s := s, named := (p, t) :: r.named, mis := if mis then r.mis ++ [(p, c)] else r.mis }

/-- R269: every assigned tally is rebased. -/
def State.rebase (s : State) : State :=
  (List.range 16).foldl (fun a p => (a.tallyRange p).foldl (fun a t =>
    let a := if a.fld F.TDE_TCFG.START [t] = a.fld F.TDE_TAL.VALUE [t] then a
      else a.setFld F.TDE_TCFG.START [t] (a.fld F.TDE_TAL.VALUE [t])
    if a.word .TDE_TCNT [t] = 0 then a else a.setWord .TDE_TCNT [t] 0) a) s

/-- RECONCILIATION: every entry in order, and the rebasing; the partitions with a MIS. -/
def State.reconcile (s : State) : State × List (Nat × Nat) :=
  let r := s.tide.lists.foldl (fun r x => x.2.2.foldl (fun r e => Recon.entry x.1 x.2.1 r e) r) (⟨s, [], []⟩ : Recon)
  (r.s.rebase.modTide (fun t => { t with lists := [] }), r.mis)

/-! ### What RECON applies (R267) -/

/-- R37, R180: CCLK changes, and with it LMAX of every cluster. (log 40, DEDUCED) -/
def State.setCclk (s : State) (khz : Nat) : State :=
  let s := s.setFlds [] [(F.CLK_CCLK.CUR, khz), (F.CLK_CCLK.NEXT, 0)]
  (List.range 1250).foldl (fun a c =>
    let x := a.lmaxOf (a.fld F.CLU_PLEGMAX.LUS [c])
    if !a.enabled c || a.fld F.CLU_PLEGMAX.LMAX [c] == x then a else a.setFld F.CLU_PLEGMAX.LMAX [c] x) s

/-- R37: the CCLK that a partner reports is compared; a difference on a fixed-latency landing holds the partitions that
sail through it, and posts event 0x0302. -/
def State.cclkCheck (s : State) (l khz : Nat) : State :=
  let cur := s.fld F.CLK_CCLK.CUR []
  let off : State := { s with cclkBad := s.cclkBad.filter (· != l) }
  if s.lstate l = 3 ∧ khz ≠ cur then
    ({ off with cclkBad := l :: off.cclkBad }).post 0x0302 0x12 partNone (4 * l) cur khz
  else off

/-- SYN_CCLK (R37): compared at once, or in the RECON that the die awaits. -/
def execSynCclk (l : Fin 8) (khz : BitVec 32) (s : State) : Res := onCore s fun s =>
  let s := if s.torec l.val then s.giveBack l.val 4 16 else s
  if !s.torec l.val then s
  else if s.tst = 2 ∨ (s.tst = 3 ∧ !s.tide.recon) then s.modLand l.val (fun k => { k with pcclk := some khz.toNat })
  else s.cclkCheck l.val khz.toNat

/-- R386: CCLK goes to the partner of every Torec landing, and what the partners have reported is compared. -/
def State.reportCclk (s : State) : State :=
  lands8.foldl (fun a l =>
    if a.torec l then
      let a := a.sendOn l (a.hdr 4 6 (a.fld F.LND_STAT.PPOS [l]) 0 0 1 0 0) (leBytes 16 (a.fld F.CLK_CCLK.CUR []))
      match (a.lnd l).pcclk with
      | some k => (a.modLand l (fun x => { x with pcclk := none })).cclkCheck l k
      | none => a
    else a) s

/-- A tide without a valid GRANT (R426). -/
def State.missGrant (s : State) : State :=
  let was := s.fld F.PWR_GRANT.MISS []
  let m := satAdd 4 was 1
  let s := s.setFld F.PWR_GRANT.MISS [] m
  if m = 2 ∧ was = 1 then s.post 0x0707 0x10 partNone locNone (s.fld F.PWR_GRANT.GRANT []) m else s

/-- R424, R426: the grant of this tide applies, or is missed. -/
def State.applyGrant (s : State) : State :=
  let n := s.fld F.TDE_TNUM.NUM []
  let prev := s.fld F.PWR_GRANT.GRANT []
  match s.pow.grant with
  | some (t, g) =>
    if t = n then
      let s : State := { s with pow := { s.pow with grant := none } }
      let s := s.setFlds [] [(F.PWR_GRANT.GRANT, g), (F.PWR_GRANT.GTIDE, n % 2 ^ 32), (F.PWR_GRANT.MISS, 0)]
      if g = prev then s else s.post 0x0708 0x10 partNone locNone g prev
    else s.missGrant
  | none => s.missGrant

/-- R363: SCALE follows DBW. -/
def State.applyScale (s : State) : State :=
  if !s.tide.dbwNew then s
  else
    let old := s.fld F.FRY_SCALE.SCALE []
    let new := if s.gbw = 0 then 65536 else min 65536 (65536 * s.dbw / s.gbw)
    let s := (s.setFld F.FRY_SCALE.SCALE [] new).modTide (fun t => { t with dbwNew := false })
    if 65536 ≤ old ∧ new < 65536 then s.post 0x0106 0x02 partNone locNone s.dbw new
    else if old < 65536 ∧ 65536 ≤ new then s.post 0x0107 0x02 partNone locNone s.dbw s.gbw
    else s

/-- R458: epoch and digest of every member are compared with the own. -/
def State.compareDigests (s : State) : State :=
  let bad := s.members_.filter (fun q => q != s.pos && !(s.helm.digs.any (fun d => d == (q, s.tide.dig.1, s.tide.dig.2))))
  let mis := bad.foldl (fun a q => a + 2 ^ q) 0
  let was := s.odNat 0x4120 3 0
  let wasMis := s.odNat 0x4120 4 0
  let s : State := { s with od := SMap.put s.od (0x4120 * 256 + 1) s.tide.dig.2 }
  let s := ((s.odSet 0x4120 2 8 s.tide.dig.1).odSet 0x4120 4 8 mis).odSet 0x4120 3 1 (b2n (mis == 0))
  let s := s.modHelm (fun h => { h with digs := [] })
  let s : State := { s with bring := { s.bring with agree := if mis = 0 then s.bring.agree + 1 else 0 } }
  if mis ≠ 0 ∧ (was = 1 ∨ wasMis = 0) then s.post 0x080C 0x12 partNone locNone mis s.tide.dig.1
  else if mis = 0 ∧ was = 0 ∧ wasMis ≠ 0 then s.post 0x080D 0x12 partNone locNone s.tide.dig.1 0
  else s

/-- RECON_START (R267-R271, R37, R424, R426, R363, R399, R458, R483): what the die does between the release and RAMP. (log 1, DESIGN CHOICE) -/
def execReconStart (_ccy : BitVec 32) (s : State) : Res := onCore s fun s =>
  if s.tst ≠ 3 ∨ s.tide.recon then s
  else
    let r := s.reconcile
    let s := r.1
    let s := if s.tide.cclk = 0 then s else s.setCclk s.tide.cclk
    let s := s.applyGrant.applyNext
    -- R402: what the landings have agreed, and a new MEMBW of a partner, count in DBW from now on
    let s := lands8.foldl (fun a l => (a.reconLanding l).moduleSet l) s
    let s := s.reportCclk.applyScale
    -- R271, R441: a MIS is a tally fault of its partition
    let s := r.2.foldl (fun a x => a.contain x.1 x.2 7 0 0 0 0 (.endv 0x42)) s
    let s := s.compareDigests
    let s := (List.range 16).foldl (fun a p => if a.exists_ p then a.touch (128 + p) else a) (s.touch 144)
    (s.modTide (fun t => { t with recon := true })).cohPump

/-! ### The ramp (R273-R275) -/

/-- SYN_TALLY (R267): a TALLY of the current period applies at once; one of a later period waits for RAMP. -/
def execSynTally (h : Header) (tally : BitVec 16) (amount : Int) (tide : W64) (s : State) : Res := onCore s fun s =>
  let s := s.giveBackTo h.src.toNat 4 16
  if tide.toNat < s.period then s
  else if tide.toNat = s.period ∧ s.tst ≠ 3 then (s.takeTally ⟨h, tally.toNat, amount⟩).takeWaits
  else s.modTide (fun t => { t with held := t.held ++ [⟨h, tally.toNat, amount⟩] })

/-- SYN_TACK (R386). (log 60, DEDUCED) -/
def execSynTack (src : BitVec 6) (tally : BitVec 16) (s : State) : Res := onCore s fun s =>
  s.modTide (fun t => { t with sent := t.sent.erase (src.toNat, tally.toNat) })

/-- A partition leaves the barrier: its pilots run again under the ramp. Bubbles already requested and the holds of other dies
stand (R239, R413). -/
def State.leaveBarrier (s : State) (p : Nat) : State :=
  if (s.part p).live then
    let s := forClusters (s.part p).cls (fun c a => if a.pilot c = 4 then a.setFld F.CLU_PSTAT.STATE [c] 2 else a) s
    s.modPart p (fun q => { q with
      tideAt := none, rampJ := some 0, hold := q.hold.map (fun h => ⟨Nat.land h.causes 33, false, false⟩) })
  else s

/-- RAMP_START (R267, R273): 64 ccy after the release. -/
def execRampStart (ccy : BitVec 32) (s : State) : Res := onCore s fun s =>
  if s.tst ≠ 3 ∨ !s.tide.recon then s
  else
    -- R409: the voltage falls after a lower CCLK has applied
    let s := if s.tide.cclk = 0 then s else s.setCoreMv (coreMv (s.fld F.CLK_CCLK.CUR []))
    let s := (s.setTst 4 ccy.toNat).setFlds [] [(F.TDE_RAMP.ACT, 1), (F.TDE_RAMP.WAVE, 0)]
    let s : State := { s with rampExt := 0 }
    let s := (List.range 16).foldl (fun a p => a.leaveBarrier p) s
    let held := s.tide.held
    State.takeWaits <| held.foldl (fun a x => a.takeTally x) (s.modTide (fun t => { t with held := [] }))

/-- RAMP_WAVE_END (R273): the next wave begins; after wave 15 the die runs. -/
def execRampWaveEnd (waits : List Nat) (ccy : BitVec 32) (s : State) : Res := onCore s fun s =>
  if s.tst ≠ 4 then s
  else
    let w := s.fld F.TDE_RAMP.WAVE []
    if w < 15 then s.setFld F.TDE_RAMP.WAVE [] (w + 1)
    else
      let s := s.setFlds [] [(F.TDE_RAMP.ACT, 0), (F.TDE_RAMP.WAVE, 0)]
      let s := (List.range 16).foldl (fun a p =>
        let a := if (a.part p).rampJ.isSome then a.modPart p (fun q => { q with rampJ := none }) else a
        if a.exists_ p then a.setFld F.TDE_PTIDE.LASTW [p] (min (listGet 0 waits p) (2 ^ 32 - 1)) else a) s
      let s : State := { s with rampExt := 0 }
      s.setTst 0 ccy.toNat

/-- SYN_DIGEST (R458). -/
def execSynDigest (src : BitVec 6) (epoch : W64) (digest : Bytes) (s : State) : Res := onCore s fun s =>
  s.modHelm (fun h => { h with
    digs := (src.toNat, epoch.toNat, slice digest 0 48) :: h.digs.filter (fun d => d.1 != src.toNat) })

/-! ### The package budget (R424, R425, R427) -/

/-- TOLL_REPORT (R424): taken by the helm's firmware (R469, R491). -/
def execTollReport (src : BitVec 6) (r : TollReport) (s : State) : Res := onCore s fun s =>
  let s := s.giveBackTo src.toNat 5 32
  if s.hstate = 2 ∧ s.mpst ≤ 1 then s.reportIn src.toNat r else s

/-- R427: what exceeds the budget is taken 1 W at a time from the largest grant, the lowest position first. -/
def trimGrants (budget : Nat) : Nat → List (Nat × Nat) → List (Nat × Nat)
  | 0, gs => gs
  | fuel + 1, gs =>
    if gs.foldl (fun a x => a + x.2) 0 ≤ budget then gs
    else
      let top := gs.foldl (fun a x => max a x.2) 0
      match findIdx (fun (x : Nat × Nat) => x.2 == top) gs with
      | some i => trimGrants budget fuel (listMod gs i (fun x => (x.1, x.2 - 1000)))
      | none => gs

/-- R427: a new PKGB: every grant is scaled to it. -/
def State.newBudget (s : State) (gs : List (Nat × Nat)) : List (Nat × Nat) :=
  let old := s.helm.pkgb
  let new := s.pkgb
  if old = new then gs
  else if old = 0 ∨ new = 0 then gs.map (fun x => (x.1, s.firstGrant))
  else trimGrants new 65536 (gs.map (fun x => (x.1, max s.gmin (min s.penv (x.2 * new / old)))))

/-- Move at most `t` in all: `room` says how much each die gives or takes; the dies in the order of a list. -/
def spread : Nat → List (Nat × Nat) → List (Nat × Nat)
  | _, [] => []
  | t, (q, room) :: r => (q, min t room) :: spread (t - min t room) r

/-- R425: the grants that the reports of a tide give. -/
def State.moveGrants (s : State) (reps : List (Nat × TollReport)) (gs : List (Nat × Nat)) : List (Nat × Nat) :=
  if s.pkgb = 0 then gs.map (fun x => (x.1, s.penv))
  else
    let tper := s.fld F.TDE_TCTL.TPER []
    let grantOf := fun (q : Nat) => ((gs.find? (fun x => x.1 == q)).map (·.2)).getD 0
    let known := reps.filter (fun x => gs.any (fun g => g.1 == x.1) && x.2.guse.toNat == grantOf x.1)
    let crit := known.filter (fun x => decide (x.2.stall.toNat * 16 < tper) && x.2.bub.toNat != 0)
    let give := known.filter (fun x => !(decide (x.2.stall.toNat * 16 < tper) && x.2.bub.toNat != 0) &&
      decide (tper ≤ x.2.stall.toNat * 4) && decide (s.gmin < grantOf x.1))
    let down := (sortBy (fun (x : Nat × TollReport) => (2 ^ 32 - x.2.stall.toNat) * 64 + x.1) give).map (fun x =>
      (x.1, min s.gstep (grantOf x.1 - s.gmin)))
    let up := (sortBy (fun (x : Nat × TollReport) => x.2.stall.toNat * 64 + x.1) crit).map (fun x =>
      (x.1, min s.gstep (s.penv - grantOf x.1)))
    let sum := fun (l : List (Nat × Nat)) => l.foldl (fun a x => a + x.2) 0
    let t := min (sum down) (sum up)
    let less := spread t down
    let more := spread t up
    let of := fun (l : List (Nat × Nat)) (q : Nat) => ((l.find? (fun x => x.1 == q)).map (·.2)).getD 0
    gs.map (fun x => (x.1, x.2 + of more x.1 - of less x.1))

/-- GRANT_COMPUTE (R425): the helm's MP finds the grants of the next tide and sends them. (log 81, DEDUCED) -/
def execGrantCompute (s : State) : Res := onCore s fun s =>
  if s.hstate ≠ 2 ∨ !s.tide.begun ∨ 2 ≤ s.mpst then s
  else
    let n := s.fld F.TDE_TNUM.NUM []
    -- a new helm starts from the GUSE values of the last REPORTs; a die without one keeps its grant
    let gs := s.members_.filterMap (fun q =>
      match s.helm.grants.find? (fun x => x.1 == q), s.helm.reps.find? (fun x => x.1 == q) with
      | some g, _ => some g
      | none, some r => some (q, r.2.guse.toNat)
      | none, none => none)
    let s := if s.helm.begun then s else s.modHelm (fun h => { h with pkgb := s.pkgb, begun := true })
    let gs := s.newBudget gs
    let gs := s.moveGrants (s.helm.reps.filter (fun x => x.2.tide.toNat == n)) gs
    (s.modHelm (fun h => { h with grants := gs, pkgb := s.pkgb })).sendGrants (n + 1)

/-- TOLL_GRANT (R424): a grant of the current term waits for the RECON of its tide; any other is discarded. -/
def execTollGrant (tide : W64) (grant term : BitVec 32) (s : State) : Res := onCore s fun s =>
  let s := s.giveBackTo (s.fld F.CLK_HELM_1.HPOS []) 5 16
  let due := if s.tst = 3 ∧ !s.tide.recon then s.fld F.TDE_TNUM.NUM [] else s.nextTide
  if s.mpst ≤ 1 ∧ term.toNat = s.term ∧ due ≤ tide.toNat then { s with pow := { s.pow with grant := some (tide.toNat, grant.toNat) } } else s

end Sys2Proof.Machine
end

