-- ==== Sys2Proof/Machine/Power.lean ====
section
/-! DEFINITION. Power, current and temperature (R407-R423): the control step, the thermal unit, the clamp, the trip and the
di/dt limiter. -/

namespace Sys2Proof.Machine

/-- Change what the power controller holds. -/
def State.modPow (s : State) (f : Power → Power) : State := { s with pow := f s.pow }

/-- Number `i` of a list of numbers, 0 past its end. -/
abbrev natAt (l : List Nat) (i : Nat) : Nat := listGet 0 l i

/-- Sum of a list. -/
def sumList (l : List Nat) : Nat := l.foldl (· + ·) 0

/-! ### Caps (R418, R420) -/

/-- TCAP in mW (R420). -/
def State.tcap (s : State) : Nat :=
  1000 * max (s.fld F.PWR_THCFG.TFLOOR [])
    (min 700 (s.fld F.PWR_CTL.PENV []) - s.fld F.PWR_TSTAT.TLVL [] * s.fld F.PWR_THCFG.TSTEP [])

/-- SCAP in mW (R418). -/
def State.scap (s : State) : Nat := min (min s.penv (s.fld F.PWR_GRANT.GRANT [])) s.tcap

/-- Burst is allowed (R418). -/
def State.burstOk (s : State) : Bool :=
  decide (s.penv ≤ s.fld F.PWR_GRANT.GRANT []) && s.fld F.PWR_TSTAT.TLVL [] == 0 &&
    decide (s.fld F.PWR_GRANT.MISS [] < 2) && s.bit F.PWR_STAT.BEN []

/-- PBURST in mW, from PENV to 900 W (R428). -/
def State.pburst (s : State) : Nat := max s.penv (1000 * min 900 (s.fld F.PWR_CTL.PBURST []))

/-- CAP in mW (R418). -/
def State.cap_ (s : State) : Nat := if s.burstOk && s.pow.q != 0 then s.pburst else s.scap

/-! ### The cap law (R414) -/

/-- What the cap law reads of one partition: density in use, power, held power × 100 and fraction. -/
structure CapIn where
  d : Nat
  pw : Nat
  h100 : Nat
  pfrac : Nat

/-- A common denominator of the law's values. -/
def capDen (ps : List CapIn) : Nat := 102400 * ps.foldl (fun a x => a * (256 - x.d)) 1

/-- h, u and ex of a partition, times the denominator. -/
def CapIn.h (x : CapIn) (den : Nat) : Int := ((x.h100 * (den / 100) : Nat) : Int)
def CapIn.u (x : CapIn) (den : Nat) : Int := x.h den + (((x.pw * den : Nat) : Int) - x.h den) * 256 / ((256 - x.d : Nat) : Int)
def CapIn.ex (x : CapIn) (den cap : Nat) : Int := max 0 (x.u den - ((x.pfrac * cap * (den / 1024) : Nat) : Int))

/-- Sum of a list of integers. -/
def sumInt (l : List Int) : Int := l.foldl (· + ·) 0

/-- R414: the targets of the partitions at a cap, with `excess` the overhead power. A partition whose power without bubbles is
not above its held power takes 0. (log 18, DESIGN CHOICE) -/
def capLaw (ps : List CapIn) (cap excess : Nat) : List Nat :=
  let den := capDen ps
  let e : Int := sumInt (ps.map (·.u den)) + ((excess * den : Nat) : Int) - ((cap * den : Nat) : Int)
  if e ≤ 0 then ps.map (fun _ => 0)
  else
    let ex0 := ps.map (·.ex den cap)
    let ex := if sumInt ex0 = 0 then ps.map (·.u den) else ex0
    let sx := sumInt ex
    (ps.zip ex).map (fun x =>
      let dyn := x.1.u den - x.1.h den
      if dyn ≤ 0 ∨ sx ≤ 0 then 0 else min 255 (cdiv (256 * (e * x.2).toNat) (sx * dyn).toNat))

/-! ### The control step -/

/-- Rails of the rail law: all but the always-on rail. -/
def lawRails : List Nat := List.range 35

/-- R408, R428: ICLAMP, ILIM and IWEAR of a rail as they act, in units of 100 mA. -/
def State.ilim (s : State) (n : Nat) : Nat := min (s.fld F.PWR_RAIL_LIMIT.ILIM [n]) (s.fld F.PWR_RAIL_LIMIT.ICLAMP [n])
def State.iwear (s : State) (n : Nat) : Nat := min (s.fld F.PWR_RAIL_LIMIT.IWEAR [n]) (s.ilim n)

/-- R415: the excess of a rail; 0 where there is none. -/
def State.railExcess (s : State) (m : PowerMeas) (n : Nat) : Nat :=
  max (natAt m.i2 n - s.ilim n) (natAt m.i20 n - s.iwear n)

/-- A part of an energy in proportion to a part of a measure. -/
def portion (e mine all : Nat) : Nat := if all = 0 then 0 else e * mine / all

/-- Sum of a measure of clusters over those that a test accepts. -/
def clusterSum (l : List (Nat × Nat)) (ok : Nat → Bool) : Nat := sumList ((l.filter (fun x => ok x.1)).map (·.2))

/-- R410: the energy of rail `n` that is attributed to partition `p`, in µJ: by activity in a core region, by bank accesses, or
by bytes moved; the rest is overhead. (log 5, DESIGN CHOICE) -/
def State.attributed (s : State) (m : PowerMeas) (p n : Nat) : Nat :=
  let e := natAt m.railEnergy n
  let mine := fun (c : Nat) => s.inPart c && s.partOf c == p
  if n < 25 then
    portion e (clusterSum m.act (fun c => s.regionOf c == n && mine c)) (clusterSum m.act (fun c => s.regionOf c == n))
  else if n = 25 then portion e (clusterSum m.banks mine) (clusterSum m.banks (fun _ => true))
  else if n < 34 then
    portion e (natAt (listGet [] m.landBytes p) (n - 26)) (sumList (m.landBytes.map (fun l => natAt l (n - 26))))
  else if n = 34 then portion e (natAt m.ferryBytes p) (sumList m.ferryBytes)
  else 0

/-- R411: the energy of partition `p` in the step. -/
def State.partEnergy (s : State) (m : PowerMeas) (p : Nat) : Nat :=
  if s.exists_ p then sumList ((List.range 36).map (fun n => s.attributed m p n)) else 0

/-- R414: the held power of partition `p`, times 100: the estimate, or 0.35 of its power until a step has given one. -/
def State.held100 (s : State) (m : PowerMeas) (p : Nat) : Nat :=
  if s.pow.hseen.contains p then 100 * s.fld F.PWR_PBUB.HPW [p] else 35 * (2000 * s.partEnergy m p)

/-- R415: the dynamic current that partition `p` draws from a rail, in 100 mA: its attributed current less that of its held
ccy, as if it had no bubbles. Its held power is taken to spread over the rails as its power does. (log 18, DESIGN CHOICE) -/
def State.dynOn (s : State) (m : PowerMeas) (p n : Nat) : Nat :=
  let pw100 := 200000 * s.partEnergy m p
  portion (20000 * s.attributed m p n * (pw100 - s.held100 m p) * 256) 1 (pw100 * (256 - s.fld F.PWR_PBUB.D [p]) * natAt m.mv n)

/-- R415: Y of a rail. -/
def State.dynAll (s : State) (m : PowerMeas) (n : Nat) : Nat :=
  sumList (((List.range 16).filter s.exists_).map (fun p => s.dynOn m p n))

/-- R415: DRAIL_n. (log 18, DESIGN CHOICE) -/
def State.drail (s : State) (m : PowerMeas) (n : Nat) : Nat :=
  let x := s.railExcess m n
  let y := s.dynAll m n
  if x = 0 then 0 else if y = 0 then (Config.railDensity s.free n).toNat else min 255 (cdiv (256 * x) y)

/-- The partition has attributed energy on a rail in this step. -/
def State.draws (s : State) (m : PowerMeas) (p n : Nat) : Bool := s.attributed m p n != 0

/-- R421: a clamp forces density 255 on partition `p`. -/
def State.clampedPart (s : State) (m : PowerMeas) (p : Nat) : Bool :=
  s.pow.clamped.any (fun n => if n < 25 then (s.part p).cls.any (fun c => s.regionOf c == n) else s.draws m p n)

/-- R411: the energies of the step: they saturate, and a ring takes those of a voyage from READY until its record is
delivered. -/
def State.addEnergy (s : State) (m : PowerMeas) (total excess : Nat) : State :=
  let add := fun (f : Fld) (idx : List Nat) (n : Nat) (s : State) => if n = 0 then s else s.incFld f idx n
  let s := add F.PWR_DENERGY.E [] total (add F.PWR_OENERGY.E [] excess s)
  (List.range 16).foldl (fun a p =>
    let e := s.partEnergy m p
    let a := add F.PWR_PENERGY.E [p] e a
    if (s.front p).ready then add F.PWR_RENERGY.E [s.fld F.FE_PSTAT.RING [p]] e a else a) s

/-- R419: the burst credit after a step at power `p` mW. -/
def State.burstCredit (s : State) (p : Nat) : State :=
  let q := s.pow.q
  let qmax := 2000000 * min 4000 (s.fld F.PWR_CTL.QMAX [])
  let q' := if s.penv < p then q - (p - s.penv) else min qmax (q + (s.penv - p))
  let s := (s.modPow (fun w => { w with q := q' })).setFld F.PWR_STAT.Q [] (q' / 2000000)
  if q ≠ 0 ∧ q' = 0 then
    ((s.setFld F.PWR_STAT.BEN [] 0).incFld F.PWR_CNT.BEXH [] 1).post 0x0701 0x10 partNone locNone p s.scap
  else if !s.bit F.PWR_STAT.BEN [] && decide (2000000 * min (min 4000 (s.fld F.PWR_CTL.QMAX [])) (s.fld F.PWR_CTL.QRE []) ≤ q') &&
      q' != 0 then
    (s.setFld F.PWR_STAT.BEN [] 1).post 0x0702 0x10 partNone locNone (q' / 2000000) 0
  else s

/-- R415: one rail: its state and its episode. -/
def State.railStep (s : State) (m : PowerMeas) (n : Nat) : State :=
  let d := s.drail m n
  let was := s.fld F.PWR_RAIL_STAT.DR [n]
  let i2 := natAt m.i2 n
  let i20 := natAt m.i20 n
  let s := s.setFlds [n] [(F.PWR_RAIL_STAT.I2, min i2 4095), (F.PWR_RAIL_STAT.I20, min i20 4095),
    (F.PWR_RAIL_STAT.V, min (natAt m.mv n) 4095), (F.PWR_RAIL_STAT.DR, d)]
  let s := if d = 0 then s else s.incFld F.PWR_RAIL_STAT.LIMEV [n] 1
  if d ≠ 0 ∧ was = 0 then s.post 0x0704 0x10 partNone n d (i2 * 2 ^ 16 + i20) else s

/-- The always-on rail has no density: its currents and its voltage alone are shown (R428). -/
def State.aonStep (s : State) (m : PowerMeas) : State :=
  s.setFlds [35] [(F.PWR_RAIL_STAT.I2, min (natAt m.i2 35) 4095), (F.PWR_RAIL_STAT.I20, min (natAt m.i20 35) 4095),
    (F.PWR_RAIL_STAT.V, min (natAt m.mv 35) 4095)]

/-- R417: limits that bubbles cannot attain: the die above its cap while some partition sits at density 255, and rails above
their limits that only overhead loads. A step that is the third in a row, or a later one, counts once in CAPSAT, and the event
is posted once in a tide period. -/
def State.unattained (s : State) (m : PowerMeas) (power cap : Nat) : State :=
  let top := (List.range 16).any (fun q => s.exists_ q && s.fld F.PWR_PBUB.D [q] == 255)
  let k := if cap < power ∧ top then s.pow.capRun + 1 else 0
  let run := fun (n : Nat) => if s.railExcess m n ≠ 0 ∧ s.dynAll m n = 0 then SMap.get 0 s.pow.railRun n + 1 else 0
  let runs := lawRails.map (fun n => (n, run n))
  let s' := s.modPow (fun w => { w with capRun := k, railRun := runs.foldl (fun a x => SMap.set 0 a x.1 x.2) w.railRun })
  if 3 ≤ k then (s'.incFld F.PWR_CNT.CAPSAT [] 1).postOnce 0x0705 0x0705 0x10 partNone locNone (power - cap) k
  else match runs.find? (fun x => decide (3 ≤ x.2)) with
    | some x => (s'.incFld F.PWR_CNT.CAPSAT [] 1).postOnce 0x0705 0x0705 0x10 partNone x.1 (s.railExcess m x.1) x.2
    | none => s'

/-- R416, R421, R423: the new density of partition `p`. -/
def State.newDensity (s : State) (m : PowerMeas) (p dcap drmax : Nat) : State :=
  let d := s.fld F.PWR_PBUB.D [p]
  let target := if s.clampedPart m p then 255 else max dcap drmax
  let floor := if s.pow.droop then d else d - 16
  s.setFlds [p] [(F.PWR_PBUB.D, max target floor), (F.PWR_PBUB.DCAP, dcap), (F.PWR_PBUB.DRMAX, drmax)]

/-- R414: the held-power estimate of partition `p`: from the held ccy of a step with at least 64 of them; until the first such
step it follows the partition's power. -/
def State.takeHeld (s : State) (m : PowerMeas) (p : Nat) : State :=
  let h := listGet (0, 0) m.held p
  if 64 ≤ h.1 then
    (s.setFld F.PWR_PBUB.HPW [p] (min h.2 (2 ^ 20 - 1))).modPow (fun w =>
      { w with hseen := if w.hseen.contains p then w.hseen else p :: w.hseen })
  else if s.pow.hseen.contains p then s
  else s.setFld F.PWR_PBUB.HPW [p] (min (2000 * s.partEnergy m p * 35 / 100) (2 ^ 20 - 1))

/-- POWER_CONTROL_STEP (R410-R419): every 500 ns. A µJ in 500 ns is 2,000 mW. (log 5, DESIGN CHOICE) -/
def State.powerStep (s : State) (m : PowerMeas) : State :=
  let ps := (List.range 16).filter s.exists_
  let total := sumList m.railEnergy
  let mine := sumList (ps.map (s.partEnergy m))
  let power := 2000 * total
  let excess := 2000 * (total - mine)
  let cap := s.cap_
  let s := s.takeFree.1
  let s := s.addEnergy m total (total - mine)
  let s := ps.foldl (fun a p => a.takeHeld m p) s
  let ins : List CapIn := ps.map (fun p =>
    ⟨s.fld F.PWR_PBUB.D [p], 2000 * s.partEnergy m p, s.held100 m p, s.fld F.PWR_PCFG.PFRAC [p]⟩)
  let targets := capLaw ins cap excess
  let den := capDen ins
  let s := s.modPow (fun w => { w with demand := (sumInt (ins.map (·.u den)) / (den : Int)).toNat + excess })
  let s := s.unattained m power cap
  let t := s
  let s := (lawRails.foldl (fun a n => a.railStep m n) s).aonStep m
  let drails := lawRails.map (fun n => (n, s.fld F.PWR_RAIL_STAT.DR [n]))
  let any := drails.any (fun x => x.2 != 0)
  let s := if any then s.incFld F.PWR_CNT.RLIMS [] 1 else s
  let s := (ps.zip targets).foldl (fun a x =>
    -- where no partition draws dynamic current the rail's density has no effect
    let dr := drails.foldl (fun b r => if t.draws m x.1 r.1 && t.dynAll m r.1 != 0 then max b r.2 else b) 0
    (a.newDensity m x.1 x.2 dr).setFlds [x.1] [(F.PWR_PCFG.SHARE, min (a.fld F.PWR_PCFG.PFRAC [x.1] * cap / 1024) (2 ^ 20 - 1)),
      (F.PWR_PCFG.PPW, min (2000 * t.partEnergy m x.1) (2 ^ 20 - 1))]) s
  let s := s.setFlds [] [(F.PWR_STAT.CAP, min cap (2 ^ 20 - 1)), (F.PWR_STAT.BURST, b2n (s.burstOk && s.pow.q != 0)),
    (F.PWR_STAT.RLIM, b2n any), (F.PWR_STAT.CLMP, b2n (!s.pow.clamped.isEmpty)), (F.PWR_DPWR.P, min power (2 ^ 20 - 1)),
    (F.PWR_DPWR.SCAP, min s.scap (2 ^ 20 - 1)), (F.PWR_DPWR.OVER, min excess (2 ^ 20 - 1))]
  (s.burstCredit power).modPow (fun w => { w with droop := false })

/-- POWER_CONTROL_STEP. -/
def execPowerControlStep (m : PowerMeas) (s : State) : Res := onCore s (fun s => s.powerStep m)

/-! ### Temperature (R420) -/

/-- R420: the release point of a throttle level, in 1/16 °C. -/
def State.releasePoint (s : State) (level : Nat) : Int :=
  16 * ((s.fld F.PWR_THCFG.TTHR [] : Int) + level - 1 - s.fld F.PWR_THCFG.THYST [])

/-- THERMAL_SAMPLE (R420): all sensors are read; Tj is the highest reading, of the lowest sensor that gives it. Samples below a
level's release point are counted up to 10 ms of them. (log 5, DESIGN CHOICE) -/
def execThermalSample (temps : List Int) (s : State) : Res := onMp s fun s =>
  let ts := (List.range 64).map (fun n => listGet (-2048) temps n)
  let s := (ts.zip (List.range 64)).foldl (fun a x => a.setFld F.PWR_TSENS.T [x.2] (wrapN 12 x.1)) s
  let tj := ts.foldl max (-2048)
  let cool := (List.range 16).foldl (fun m k =>
    SMap.upd 0 m k (fun n => if tj < s.releasePoint k then min 1000 (n + 1) else 0)) s.pow.cool
  (s.modPow (fun w => { w with cool := cool })).setFlds []
    [(F.PWR_TSTAT.TJ, wrapN 12 tj), (F.PWR_TSTAT.HOT, (findIdx (· == tj) ts).getD 0)]

/-- Tj in 1/16 °C. -/
def State.tj (s : State) : Int := sext 12 (s.fld F.PWR_TSTAT.TJ [])

/-- R420: `n` further samples have read what the last one read. -/
def State.sameSamples (s : State) (n : Nat) : State :=
  s.modPow (fun w => { w with cool := (List.range 16).foldl (fun m k =>
    SMap.upd 0 m k (fun c => if c = 0 then 0 else min 1000 (c + n))) w.cool })

/-- THROTTLE_UPDATE (R420): every 1 ms; a level falls once Tj has stayed below its release point for 10 ms, which are 1,000
samples. -/
def execThrottleUpdate (same : Nat) (s : State) : Res := onMp s fun s =>
  let s := s.sameSamples same
  let old := s.fld F.PWR_TSTAT.TLVL []
  let up := min 15 ((s.tj / 16) - (s.fld F.PWR_THCFG.TTHR [] : Int) + 1).toNat
  let new := if old < up then up else if 1000 ≤ SMap.get 0 s.pow.cool old then old - 1 else old
  if new = old then s
  else
    (s.setFld F.PWR_TSTAT.TLVL [] new).post 0x0703 0x10 partNone (s.fld F.PWR_TSTAT.HOT []) new (wrapN 64 s.tj)

/-! ### Clamp and trip (R421, R422) -/

/-- OVERCURRENT_CLAMP (R421): a clamp episode begins. -/
def execOvercurrentClamp (rail : Fin 36) (s : State) : Res := onCore s fun s =>
  let n := rail.val
  if s.pow.clamped.contains n then s
  else
    let s := s.modPow (fun w => { w with clamped := n :: w.clamped })
    ((s.setFld F.PWR_RAIL_STAT.CLMP [n] 1).setFld F.PWR_STAT.CLMP [] 1).incFld F.PWR_CNT.CLAMP [] 1

/-- CLAMP_RELEASE (R421): the episode ends; event 0x0706 tells how long it lasted. -/
def execClampRelease (rail : Fin 36) (ns : Nat) (s : State) : Res := onCore s fun s =>
  let n := rail.val
  if s.pow.clamped.contains n then
    let s := s.modPow (fun w => { w with clamped := w.clamped.filter (· != n) })
    let s := (s.setFld F.PWR_RAIL_STAT.CLMP [n] 0).setFld F.PWR_STAT.CLMP [] (b2n (!s.pow.clamped.isEmpty))
    s.post 0x0706 0x10 partNone n (s.fld F.PWR_RAIL_LIMIT.ICLAMP [n]) ns
  else s

/-- A landing in electrical idle, its PHY rail off (R422, R506). -/
def State.landIdle (s : State) (l : Nat) : State :=
  let s := (List.range 4).foldl (fun a m => a.setFld F.LND_MOD.MST [l, m] 0) s
  let s := s.modLand l Land.down
  s.setFlds [l] [(F.LND_STAT.STATE, 0), (F.LND_STAT.ACT, 0), (F.LND_STAT.HALF, 0), (F.LND_STAT.RET, 0), (F.LND_STAT.CAPH, 0),
    (F.LND_STAT.SLOTS, 0), (F.LND_STAT.OVRD, 0), (F.LND_STAT.CLS, 0), (F.LND_STAT.VER, 0)]

/-- R422, R484: the trip is latched: clocks stop, landings go idle, and the MP records it in its ring log alone. -/
def State.trip (s : State) (cause src : Nat) : State :=
  if s.bit F.PWR_TSTAT.TRIP [] then s
  else
    let s := s.setFlds [] [(F.PWR_TSTAT.TRIP, 1), (F.PWR_TSTAT.TCAUSE, cause), (F.PWR_TSTAT.TSRC, src)]
    let s : State := { s with pads := { s.pads with thermtrip := true } }
    let s := lands8.foldl (fun a l => a.landIdle l) s
    s.ringAppend ⟨s.evSeq, 0x0910, 0x01, 0xFF, BitVec.ofNat 32 s.period, 0xFFFFFFFF, BitVec.ofNat 64 cause, BitVec.ofNat 64 src⟩

/-- THERMAL_TRIP (R422). -/
def execThermalTrip (sensor : Fin 64) (s : State) : Res := onMp s (fun s => s.trip 1 sensor.val)

/-- RAIL_FAULT (R421). -/
def execRailFault (rail : Fin 36) (s : State) : Res := onMp s (fun s => s.trip 2 rail.val)

/-! ### Droop (R423) -/

/-- R274, R423: the current wave of the ramp is lengthened by 16 ccy. (log 37, DESIGN CHOICE) -/
def State.stretch (s : State) : State :=
  if s.tst = 4 then { s.incFld F.TDE_RAMP.STRETCH [] 16 with rampExt := s.rampExt + 16 } else s

/-- R423: a ccy passes for the partitions whose lowest cluster lies in the region: their delay runs down. (log 80, DESIGN CHOICE) -/
def State.delayStep (s : State) (region : Nat) : State :=
  s.modPow (fun w => { w with delayLeft := w.delayLeft.foldl (fun m x =>
    match (s.part x.1).cls with
    | c :: _ => if s.regionOf c = region then SMap.set 0 m x.1 (x.2 - 1) else m
    | [] => SMap.set 0 m x.1 0) w.delayLeft })

/-- R423: a READY partition with a cluster in the region delays its start by 16 ccy, and again once they are over, up to 64
times. -/
def State.delayStarts (s : State) (region : Nat) : State :=
  (List.range 16).foldl (fun a p =>
    if a.fld F.FE_PSTAT.STATE [p] = 5 ∧ SMap.get 0 a.pow.delayLeft p = 0 ∧ SMap.get 0 a.pow.delay p < 64 ∧
        (a.part p).cls.any (fun c => a.regionOf c == region) then
      a.modPow (fun w => { w with delay := SMap.upd 0 w.delay p (· + 1), delayLeft := SMap.set 0 w.delayLeft p 16 })
    else a) s

/-- DROOP_DETECT (R423): the margin of a region in one ccy. (log 37, DESIGN CHOICE) -/
def execDroopDetect (region : Fin 25) (mv : Nat) (s : State) : Res := onCore s fun s =>
  let n := region.val
  let s := (s.delayStep n).setFld F.PWR_DROOP.MIN [n] (min (s.fld F.PWR_DROOP.MIN [n]) mv)
  if s.fld F.PWR_DIDT.DDTHR [] ≤ mv then s.modPow (fun w => { w with droopRun := SMap.set 0 w.droopRun n 0 })
  else
    let s := s.incFld F.PWR_DROOP.EVT [n] 1
    if !s.bit F.PWR_DIDT.DIEN [] then s
    else
      let run := SMap.get 0 s.pow.droopRun n
      -- one lengthening for the die's condition, whichever regions show it
      let first := s.pow.droopRun.all (fun e => e.1 == n || decide (e.2 ≤ run))
      let s := s.modPow (fun w => { w with droop := true, droopRun := SMap.set 0 w.droopRun n (run + 1) })
      (if run % 16 = 0 ∧ first then s.stretch else s).delayStarts n

end Sys2Proof.Machine
end

