-- ==== Sys2Proof/Machine/Reset.lean ====
section
/-! DEFINITION. Supplies, the reset input and what a reset leaves (R422, R484, R505-R507, R523). -/

namespace Sys2Proof.Machine

/-- R451, R461: the helm-candidate strap, and the reference output that a candidate drives from its reset on. (log 22, DESIGN CHOICE) -/
def State.strapRef (s : State) : State :=
  s.setFlds [] [(F.CLK_REF.HCAND, b2n s.pads.straps.hcand), (F.CLK_REF.DRV, b2n s.pads.straps.hcand)]

/-- R422, R507: every block is reset, but for the ring log, SATEST, a latched trip (which clears only as RST_N rises), and
what is no block of the die: its fuses, its pads, its test access port, and what it has sent. The firmware slots are memories,
which keep their images until power-off. (log 23, DEDUCED; log 24, DEDUCED) -/
def State.dieReset (s : State) (cause : Nat) : State :=
  let r : State := { State.reset with
    pending := s.pending, fuses := s.fuses, ringLog := s.ringLog, out := s.out, tap := s.tap, pads := s.pads, free := s.free
    mp := { Mp.empty with slotA := s.mp.slotA, slotB := s.mp.slotB, rlNew := s.mp.rlNew, dataGen := s.mp.dataGen } }
  let r := ((r.setFld F.CLK_RST.CAUSE [] cause).setFld F.DBG_CTL.SATEST [] (s.fld F.DBG_CTL.SATEST [])).strapRef
  if s.bit F.PWR_TSTAT.TRIP [] then
    r.setFlds [] [(F.PWR_TSTAT.TRIP, 1), (F.PWR_TSTAT.TCAUSE, s.fld F.PWR_TSTAT.TCAUSE []), (F.PWR_TSTAT.TSRC, s.fld F.PWR_TSTAT.TSRC [])]
  else r

/-- Change the pads. -/
def State.modPads (s : State) (f : Pads → Pads) : State := { s with pads := f s.pads }

/-- VIN_POWER_ON (R505): power-on: the ring log, SATEST, a trip and the firmware slots are gone (R484, R507). (log 23, DEDUCED) -/
def execVinPowerOn (s : State) : Res :=
  .next (if s.pads.vin then s
    else
      let r : State := { State.reset with
        pending := s.pending, fuses := s.fuses, out := s.out, free := s.free
        pads := { s.pads with vin := true, thermtrip := false } }
      r.strapRef)

/-- PWRGD_RISE (R505): the die leaves reset where RST_N is high as well. -/
def execPwrgdRise (s : State) : Res := .next (if s.pads.vin then s.modPads (fun p => { p with pwrgd := true }) else s)

/-- PWRGD_FALL (R506). -/
def execPwrgdFall (s : State) : Res :=
  .next (if s.pads.pwrgd then (s.dieReset 1).modPads (fun p => { p with pwrgd := false }) else s)

/-- VIN_UNDERVOLTAGE (R506). -/
def execVinUndervoltage (s : State) : Res :=
  .next (if s.pads.vin then (s.dieReset 1).modPads (fun p => { p with vin := false }) else s)

/-- RST_N_FALL (R507): CAUSE is 2, and 3 after a trip; a die that a supply holds in reset keeps CAUSE 1. -/
def execRstNFall (s : State) : Res :=
  .next (if !s.pads.rstn then s
    else
      (if s.inReset then s else s.dieReset (if s.bit F.PWR_TSTAT.TRIP [] then 3 else 2)).modPads (fun p => { p with rstn := false }))

/-- RST_N_RISE (R501, R507): the position straps are sampled; a latched trip clears, and fires again at once where a sensor
still reads 120 °C; the die leaves reset once PWRGD is high as well. -/
def execRstNRise (pos : BitVec 6) (hot : Option (Fin 64)) (s : State) : Res :=
  .next (if s.pads.rstn then s
    else
      let s := s.modPads (fun p => { p with rstn := true, thermtrip := false, straps := { p.straps with pos := pos } })
      let s := s.setFlds [] [(F.PWR_TSTAT.TRIP, 0), (F.PWR_TSTAT.TCAUSE, 0), (F.PWR_TSTAT.TSRC, 0)]
      match hot with
      | some n => if s.inReset then s else s.trip 1 n.val
      | none => s)

end Sys2Proof.Machine
end

