-- ==== Sys2Proof/Machine/Window.lean ====
section
/-! DEFINITION. The register window (R11-R17, R474, R494, R495, R527, R528): what a read of a register returns, and the
writes of the registers with rules of their own. -/

namespace Sys2Proof.Machine

/-! ### Reads -/

/-- The register at an address, where the spec defines one. -/
def regFind (a : Nat) : Option (RegId × List Nat) :=
  if 0x02000000 ≤ a ∧ a < 0x03C00000 then
    (findReg clusterRegs ((a - 0x02000000) % 0x4000)).map (fun x => (x.1, (a - 0x02000000) / 0x4000 :: x.2))
  else findReg blockRegs a

/-- The address lies in a block of R528, and, in cluster space, in a cluster that the grade enables (R12). -/
def State.addrMapped (s : State) (a : Nat) : Bool :=
  if 0x02000000 ≤ a ∧ a < 0x03C00000 then s.enabled ((a - 0x02000000) / 0x4000)
  else blockRanges.any (fun r => decide (r.1 ≤ a ∧ a < r.2))

/-- EDGE of CHN_RCFG: the sides of a cluster without a neighbour: bit 3 north, 2 south, 1 east, 0 west. -/
def State.edges (s : State) (c : Nat) : Nat :=
  (List.range 4).foldl (fun a p => if (s.neighbour c p).isNone then a + 2 ^ (3 - p) else a) 0

/-- Entry IDX of the sailing table (R248). -/
def State.sailEntry (s : State) (c : Nat) : Nat := (SMap.get 0 (s.clu c).sail (s.fld F.CHN_SAIL_IDX.IDX [c])).toNat

/-- What a register reads as: the words it holds, and what others of them show of the rest of the state. -/
def State.readWord (s : State) (r : RegId) (idx : List Nat) : Nat :=
  let c := listGet 0 idx 0
  let k := listGet 0 idx 1
  let w := s.word r idx
  match r with
  | .CLU_PSCYC => if s.inPart c then (s.part (s.partOf c)).voyageCycles % 2 ^ 64 else 0
  | .CLU_PMASK => if k = 0 then 2 ^ 64 - 1 else w
  | .CLU_LLOCK => (List.range 64).foldl (fun a h => if s.bit F.CLU_BERTH.LLK [c, 64 * k + h] then a + 2 ^ h else a) 0
  | .CHN_SPTR =>
    match (if s.inPart c then s.sailAt c (s.scycOf c) else none) with
    | some (g, e, i) => s.segNo c g % 8 * 2 ^ 61 + e * 2 ^ 48 + i % 2 ^ 32
    | none => 0
  | .CHN_SAIL_DATA_0 => s.sailEntry c % 2 ^ 64
  | .CHN_SAIL_DATA_1 => s.sailEntry c / 2 ^ 64
  | .CHN_RCFG => putBits w 4 4 (s.edges c)
  | .TDE_TSTAT => putBits w 0 16 ((List.range 16).foldl (fun a p => if s.arrived p then a else a + 2 ^ p) 0)
  | .ID_IDENT => 0x0D47 * 2 ^ 48 + s.fuses.grade.toNat * 2 ^ 32 + s.fuses.grade.toNat * 2 ^ 24 + 0xB0 * 2 ^ 16
  | .ID_SERIAL => s.fuses.serial.toNat
  | .ID_STRAP => putBits w 32 6 s.pads.straps.pos.toNat
  | .ID_VER => putBits w 32 32 s.fuses.romver.toNat
  | .ID_SEC => putBits w 0 32 s.fuses.svnmin.toNat
  | .MGT_MBOX => putBits w 56 8 s.dictQueued
  | .MGT_CNT => putBits w 0 16 (min 0xFFFF (bits w 0 16 + s.mp.late))
  | .DBG_TRBUF => leAt (s.traceRec (c / 4)) (8 * (c % 4)) 8
  | _ => w

/-- FLT_PREC as a read finds it: ELAPSED of a recovery that is pending is the `n`th free value (R460). (log 12, DESIGN CHOICE) -/
def State.precWord (s : State) (p : List Nat) (n : Nat) : Nat :=
  let w := s.word .FLT_PREC p
  if bits w 61 3 = 0 then w else putBits w 0 32 (Config.elapsedNs n).toNat

/-- R12, R14, R474, R528: a register access is refused before it reaches its register. (log 66, DESIGN CHOICE) -/
def State.accessStatus (s : State) (a : Nat) : Nat :=
  if 2 ^ 26 ≤ a then stUnmapped else if a % 8 ≠ 0 then stAlign else if !s.addrMapped a then stUnmapped else stOk

/-- A read of one word by a requester: its status and the word. Every requester may read the ID block (R495). (log 12, DESIGN CHOICE) -/
def State.regRead (s : State) (q : Requester) (a : Nat) : State :=
  let s : State := { s with lastData := 0 }
  if s.accessStatus a ≠ stOk then s.status (s.accessStatus a)
  else if 0x00100000 ≤ a ∧ !(s.rightsOf q).any then s.deny q a
  else
    match regFind a with
    | none => s.status stOk
    | some (.FLT_PREC, p) =>
      let x := s.takeFree
      { x.1 with lastData := BitVec.ofNat 64 (s.precWord p x.2) }.status stOk
    | some (r, idx) => { s with lastData := BitVec.ofNat 64 (s.readWord r idx) }.status stOk

/-! ### Writes with rules of their own -/

/-- R248: a register of the chain network other than a counter. -/
def State.chnWrite (s : State) (q : Requester) (r : RegId) (idx : List Nat) (v : Nat) : State :=
  let c := listGet 0 idx 0
  if !isFw q || s.inPart c then s.status stBusy
  else
    let put := fun (x : Nat) =>
      (s.modClu c (fun k => { k with
        sail := SMap.set 0 k.sail (s.fld F.CHN_SAIL_IDX.IDX [c]) (BitVec.ofNat 128 x) })).status stOk
    match r with
    | .CHN_SAIL_DATA_0 => put (putBits (s.sailEntry c) 0 64 v)
    | .CHN_SAIL_DATA_1 => put (putBits (s.sailEntry c) 64 64 v)
    | .CHN_GWCFG => if (s.gwPort c (listGet 0 idx 1)).isSome then s.writeFields r idx v else s.status stOk
    | .CHN_GWPTR => s.status stOk
    | _ => s.writeFields r idx v

/-- R314: FE_CTL: EN is not cleared while a partition is outside OFF and IDLE; a COH window that comes into use is read,
and one that goes out of use holds no line. -/
def State.feCtlWrite (s : State) (v : Nat) : State :=
  let busy := (List.range 16).any (fun p => decide (2 ≤ s.fld F.FE_PSTAT.STATE [p]))
  if s.bit F.FE_CTL.EN [] && !bitAt v 63 && busy then s.status stBusy
  else
    let was := s.bit F.FE_CTL.COHEN []
    let s := s.writeFields .FE_CTL [] v
    let s : State :=
      if s.bit F.FE_CTL.COHEN [] then (if was then s else (List.range 64).foldl (fun a i => a.touch i) s)
      else { s with coh := [] }
    s.cohPump.status stOk

/-- R314: FE_RING_CFG_r. A write that would change a field of an enabled ring other than EN is ignored. (log 47, DEDUCED) -/
def State.ringCfgWrite (s : State) (q : Requester) (r v : Nat) : State :=
  let old := s.word .FE_RING_CFG [r]
  let p := bits v 56 4
  let may := fun (p : Nat) => isFw q || (s.rightsOf q).ofPart p
  let selfOf := fun (o : Nat) => o != r && s.bit F.FE_RING_CFG.SELF [o] && s.fld F.FE_RING_CFG.PART [o] == p
  let new := definedBits .FE_RING_CFG v
  if !(may (bits old 56 4) && may p) then s.deny q (regAddr .FE_RING_CFG [r])
  else if bitAt old 63 && new % 2 ^ 63 != old % 2 ^ 63 then s.status stBusy
  else if bitAt v 63 && (!s.exists_ p || (s.front p).dissolving) then s.status stInvalid
  else if bitAt v 62 && (List.range 64).any selfOf then s.status stInvalid
  else
    let s := s.setWord .FE_RING_CFG [r] new
    let s := if bitAt old 63 then s else s.setWord .PWR_RENERGY [r] 0
    let s : State := if bitAt v 63 then { s with ringErr := s.ringErr.filter (· != r) } else s
    ((s.touch (64 + r)).cohPump).status stOk

/-- R314, R315: another ring register. -/
def State.ringWrite (s : State) (q : Requester) (reg : RegId) (r v : Nat) : State :=
  if !isFw q && !(s.rightsOf q).ofPart (s.fld F.FE_RING_CFG.PART [r]) then s.deny q (regAddr reg [r])
  else if s.bit F.FE_RING_CFG.EN [r] then s.status stBusy
  else s.writeFields reg [r] v

/-- R312: a write of FE_SCMD: a command whose entry is in the cache, or whose INDEX is too large, is done at once; any other
waits, BUSY, for its entry, which the row of the command brings. -/
def State.scmdWrite (s : State) (q : Requester) (v : Nat) : State :=
  let op := bits v 56 4
  let ix := bits v 0 21
  if !isFw q && (s.rightsOf q).pmask == 0 then s.deny q (regAddr .FE_SCMD [])
  else if s.bit F.FE_SCMD.BUSY [] then s.status stBusy
  else if op = 0 then (s.setFld F.FE_SCMD.INDEX [] ix).status stOk
  else if s.scache.any (fun x => x.1 == ix) then s.scmd q op ix []
  else
    let s := s.setFlds [] [(F.FE_SCMD.BUSY, 1), (F.FE_SCMD.OP, op), (F.FE_SCMD.INDEX, ix)]
    { s with scmdq := some q }.status stOk

/-- R405: a landing register: firmware writes every one, a holder of DADMIN the counters. -/
def State.landWriteOk (s : State) (q : Requester) (r : RegId) : Bool :=
  isFw q || ([RegId.LND_CNT, .LND_LERR, .LND_MOD].contains r && (s.rightsOf q).dadmin)

/-- R404: LND_CTL: clearing EN brings the landing DOWN; a landing that is enabled trains once TRAIN has begun (R434). -/
def State.landCtlWrite (s : State) (l v : Nat) : State :=
  let was := s.bit F.LND_CTL.EN [l]
  let s := s.writeFields .LND_CTL [l] v
  let st := s.lastStat
  let now := s.bit F.LND_CTL.EN [l]
  let begun := bitAt s.bring.doneMask 4 || (s.bring.step == 4 && s.bring.status == 1)
  let s := if was && !now then s.landOff l else if !was && now && begun && s.lstate l == 0 then s.landTrain l else s
  s.status st

/-- R393, R404, R405: LND_FLCFG_j: not while a partition bound to it sails. -/
def State.flcfgWrite (s : State) (l j v : Nat) : State :=
  if s.bit F.LND_FLCFG.VAL [l, j] && (s.part (s.fld F.LND_FLCFG.PART [l, j])).live then s.status stBusy
  else (((s.writeFields .LND_FLCFG [l, j] v).clearCtl l j).moduleSet l).status stOk

/-- R429: a power register: firmware writes every one, a holder of DADMIN the counters; a write of EVT sets MIN to 0xFF. -/
def State.pwrWrite (s : State) (q : Requester) (r : RegId) (idx : List Nat) (v : Nat) : State :=
  let counters : List RegId := [.PWR_CNT, .PWR_RAIL_STAT, .PWR_DROOP]
  if isFw q || (counters.contains r && (s.rightsOf q).dadmin) then
    let s := s.writeFields r idx v
    match r with
    | .PWR_DROOP => (s.setFld F.PWR_DROOP.MIN idx 0xFF).status s.lastStat
    | _ => s
  else s.deny q (regAddr r idx)

/-- R462: a clock or fault register: firmware, or a counter field by a holder of DADMIN. -/
def State.clkWrite (s : State) (q : Requester) (r : RegId) (idx : List Nat) (v : Nat) : State :=
  let admin := (s.rightsOf q).dadmin
  match r with
  | .CLK_REF =>
    if isFw q then s.writeFields r idx v
    else if admin then (s.setFld F.CLK_REF.LOSS idx (bits v 32 16)).status stOk
    else s.deny q (regAddr r idx)
  | .FLT_CTL =>
    if !isFw q then s.deny q (regAddr r idx)
    else if !bitAt v 63 && s.bit F.FLT_CTL.EN [] && (List.range 16).any s.exists_ then s.status stBusy
    else s.writeFields r idx v
  | .FLT_RCMD =>
    if bits v 56 4 = 0 then
      if !isFw q then s.deny q (regAddr r idx) else s.writeFields r idx v
    else (s.rcmd q (bits v 56 4) (bits v 52 4) (bits v 32 11) (bits v 46 6)).cohPump
  | _ =>
    if isFw q || ([RegId.CLK_HELM_1, .FLT_CNT_0, .FLT_CNT_1].contains r && admin) then s.writeFields r idx v
    else s.deny q (regAddr r idx)

/-- R525: START of a loop test: refused with RES 1 where SATEST is clear, an enabled landing is not in LOOP, or a bring-up
step is BUSY. -/
def State.loopStart (s : State) (v : Nat) : State :=
  let put := fun (b r op : Nat) => s.setFlds [] [(F.DBG_LOOP.BUSY, b), (F.DBG_LOOP.RES, r), (F.DBG_LOOP.OP, op),
    (F.DBG_LOOP.DEPTH, bits v 55 1), (F.DBG_LOOP.PAT, bits v 52 3), (F.DBG_LOOP.DUR, bits v 20 20)]
  let bad := !s.bit F.DBG_CTL.SATEST [] || lands8.any (fun l => s.bit F.LND_CTL.EN [l] && s.lstate l != 4) || s.bring.status == 1
  (if bad then put 0 1 0 else put 1 0 1).status stOk

/-- R526: a write of DBG_LOOP. -/
def State.loopWrite (s : State) (q : Requester) (v : Nat) : State :=
  if !(s.rightsOf q).debug then s.deny q (regAddr .DBG_LOOP [])
  else if s.bit F.DBG_LOOP.BUSY [] then s.status stBusy
  else if bits v 56 4 = 1 then s.loopStart v
  else (s.writeFields .DBG_LOOP [] (putBits v 56 4 0))

/-- LOOP_TEST_START. -/
def execLoopTestStart (q : Requester) (v : W64) (s : State) : Res := onCore s fun s =>
  if bits v.toNat 56 4 = 1 then s.loopWrite q v.toNat else s

/-- The counter of a data lane of a landing (R404): its field, and its register. -/
def lerrFld (m lane : Nat) : Fld × Nat :=
  let i := 64 * m + lane
  (match i % 4 with | 0 => F.LND_LERR.CNT0 | 1 => F.LND_LERR.CNT1 | 2 => F.LND_LERR.CNT2 | _ => F.LND_LERR.CNT3, i / 4)

/-- R525: an error of a loop test is counted and its lane marked. -/
def State.loopErr (s : State) (e : LoopErr) : State :=
  let l := e.land.val
  if s.lstate l = 4 ∧ e.kind.val = 0 ∧ e.lane < 64 then
    let f := lerrFld e.m.val e.lane
    (s.incFld f.1 [l, f.2] e.n).setFld F.LND_FAIL.FAIL [l, e.m.val]
      (setBit (s.fld F.LND_FAIL.FAIL [l, e.m.val]) e.lane true)
  else s

/-- LOOP_TEST_END (R525): the errors, and the worst eye margin by module index, of the test that ends. -/
def execLoopTestEnd (errs : List LoopErr) (eye : List Nat) (s : State) : Res := onCore s fun s =>
  if s.bit F.DBG_LOOP.BUSY [] then
    let errs := errs.filter (fun e => decide (0 < e.n))
    let s := errs.foldl (fun a e => a.loopErr e) s
    let mods := (List.range 32).filter (fun i => s.lstate (i / 4) == 4 && carries (s.mst (i / 4) (i % 4)))
    let s := mods.foldl (fun a i => a.setFld F.LND_MOD.EYE [i / 4, i % 4] (min 4095 (listGet 0 eye i))) s
    let on := fun (i : Nat) (p : LoopErr → Bool) => errs.any (fun e => modIx e.land.val e.m.val == i && p e)
    let mask := fun (p : Nat → Bool) => (mods.filter p).foldl (fun a i => a + 2 ^ i) 0
    let clean := mask (fun i => !on i (fun _ => true))
    let rep := mask (fun i => !on i (fun e => e.kind.val != 0) && decide (s.failedIn (i / 4) (i % 4) 0 ≤ 2) &&
      decide (s.failedIn (i / 4) (i % 4) 1 ≤ 2))
    s.setFlds [] [(F.DBG_LOOP.BUSY, 0), (F.DBG_LOOP.RES, 0), (F.DBG_LOOP.OP, 0), (F.DBG_LOOPST.CLEAN, clean),
      (F.DBG_LOOPST.REPAIR, rep)]
  else s

/-- A debug register (R526). -/
def State.dbgWrite (s : State) (q : Requester) (r : RegId) (idx : List Nat) (v : Nat) : State :=
  match r with
  | .DBG_CAP => s.capWrite q v
  | .DBG_LOOP => s.loopWrite q v
  | _ =>
    if !(s.rightsOf q).debug then s.deny q (regAddr r idx)
    else
      let s := s.writeFields r idx v
      let s : State := if s.fld F.DBG_CTL.TMODE [] = 2 then s else { s with trHeld := 0 }
      (s.tracePump s.trHeld).status s.lastStat

/-- A write that needs a right and is then made field by field. (log 46, DESIGN CHOICE) -/
def State.plainWrite (s : State) (q : Requester) (ok : Bool) (r : RegId) (idx : List Nat) (v : Nat) : State :=
  if ok then s.writeFields r idx v else s.deny q (regAddr r idx)

/-- A write of a flag word clears the bits written as 1 in it and in the snapshot of the leg (R137, R139). -/
def State.cflagWrite (s : State) (q : Requester) (c k v : Nat) : State :=
  if (s.rightsOf q).dadmin then
    let sn := s.word .CLU_CFSNAP [c, k]
    (s.setWord .CLU_CFSNAP [c, k] (sn - Nat.land sn v)).writeFields .CLU_CFLAG [c, k] v
  else s.deny q (regAddr .CLU_CFLAG [c, k])

/-- A cluster register (R141, R180, R208, R211, R215, R248, R459). -/
def State.clusterWrite (s : State) (q : Requester) (r : RegId) (idx : List Nat) (v : Nat) : State :=
  let c := listGet 0 idx 0
  let k := listGet 0 idx 1
  match r with
  | .CLU_CFLAG => s.cflagWrite q c k v
  | .CLU_LMAP => s.lmapWrite q c k v
  | .CLU_PLEGMAX => s.legmaxWrite q c v
  | .CLU_GWCFG => s.gwcfgWrite q c k v
  | .CLU_GWCRD => s.gwcrdWrite q c k v
  | .CLU_GWADD => s.gwaddWrite q c k v
  | .CLU_BERTH => s.deny q (regAddr r idx)
  | .CHN_RCFG | .CHN_SEG | .CHN_SAIL_IDX | .CHN_SAIL_DATA_0 | .CHN_SAIL_DATA_1 | .CHN_GWCFG | .CHN_GWPTR => s.chnWrite q r idx v
  | _ => s.plainWrite q (s.rightsOf q).dadmin r idx v

/-- A register of the front end, the ferry or the chart unit (R314, R315, R345-R347). -/
def State.frontWrite (s : State) (q : Requester) (r : RegId) (idx : List Nat) (v : Nat) : State :=
  let p := listGet 0 idx 0
  let rt := s.rightsOf q
  let busyIf := fun (b : Bool) => if !rt.dadmin then s.deny q (regAddr r idx) else if b then s.status stBusy else s.writeFields r idx v
  match r with
  | .FE_CTL => if rt.dadmin then s.feCtlWrite v else s.deny q (regAddr r idx)
  | .FE_COH_BASE => busyIf (s.bit F.FE_CTL.COHEN [])
  | .FE_STAB_BASE =>
    let s := busyIf (s.bit F.FE_CTL.EN [])
    if s.lastStat = stOk then { s with scache := [] } else s
  | .FE_EVBASE => busyIf (s.bit F.FE_CTL.EN [])
  | .FE_SCMD => s.scmdWrite q v
  | .FE_RING_CFG => s.ringCfgWrite q p v
  | .FE_RING_BASE | .FE_RING_CPL => s.ringWrite q r p v
  | .FE_RING_IDX => s.ringIdxWrite q p v
  | .FE_RING_STL => s.plainWrite q (isFw q || rt.ofPart (s.fld F.FE_RING_CFG.PART [p])) r idx v
  | .FE_PCFG =>
    if !isFw q && !rt.ofPart p then s.deny q (regAddr r idx)
    else if s.fld F.FE_PSTAT.STATE [p] ≠ 1 then s.status stBusy
    else s.writeFields r idx v
  | .FE_PSTAT => s.plainWrite q (isFw q || rt.ofPart p) r idx v
  | .FE_PCMD => s.pcmdWrite q p (bits v 60 4)
  | .FRY_SCALE | .FRY_PMASK | .FRY_PRATE => s.plainWrite q (isFw q) r idx v
  | .FRY_RESCMD =>
    if bits v 56 4 = 1 ∨ bits v 56 4 = 2 then s.rescmd q (bits v 56 4) (bits v 8 7) (bits v 0 3)
    else s.plainWrite q (isFw q || rt.pmask != 0) r idx (putBits v 56 4 0)
  | .FRY_ECMD => if bits v 60 4 = 1 then s.ecmd q p else s.status stOk
  | .CHT_INV =>
    if 1 ≤ bits v 60 3 ∧ bits v 60 3 ≤ 3 then s.invCmd q (bits v 60 3) (bits v 56 4) (bits v 16 32)
    else if !isFw q && !rt.ofPart (bits v 56 4) then s.deny q (regAddr r idx)
    else if s.bit F.CHT_INV.BUSY [] then s.status stBusy
    else s.writeFields r idx (putBits v 60 3 0)
  | .CHT_INVLEN => s.plainWrite q (isFw q || rt.pmask != 0) r idx v
  | .CHT_ROOT =>
    if !isFw q then s.deny q (regAddr r idx)
    else if (s.part p).live then s.status stBusy
    else s.writeFields r idx v
  | .CHT_SPOOL => s.plainWrite q (isFw q || rt.ofPart p) r idx v
  | .CHT_PMAP =>
    if !rt.dadmin then s.deny q (regAddr r idx)
    else
      let s := s.writeFields r idx v
      s.newDbw.status s.lastStat
  | _ => s.plainWrite q rt.dadmin r idx v

/-- A register of the tide unit (R279, R259). -/
def State.tideWrite (s : State) (q : Requester) (r : RegId) (idx : List Nat) (v : Nat) : State :=
  match r with
  | .TDE_TAL => s.tallyWrite q (listGet 0 idx 0) v
  | .TDE_TCTL =>
    if !(s.rightsOf q).dadmin then s.deny q (regAddr r idx)
    else if bits v 44 20 < 10000 ∨ 1000000 < bits v 44 20 then s.status stInvalid
    else s.writeFields r idx v
  | _ => s.plainWrite q (s.rightsOf q).dadmin r idx v

/-- A register of a landing, or of the routing table (R404, R405). -/
def State.lndWrite (s : State) (q : Requester) (r : RegId) (idx : List Nat) (v : Nat) : State :=
  let l := listGet 0 idx 0
  if !s.landWriteOk q r then s.deny q (regAddr r idx)
  else
    match r with
    | .LND_CTL => s.landCtlWrite l v
    | .LND_RTCMD =>
      if s.bit F.LND_RTCMD.BUSY [l] then s.status stBusy
      else if bits v 56 4 = 0 then s.writeFields r idx v
      else s.rtcmd q l (bits v 56 4) (bits v 0 2)
    | .LND_FLCFG => s.flcfgWrite l (listGet 0 idx 1) v
    | _ => s.writeFields r idx v

/-- A write of one word by a requester; its status is left in the state. -/
def State.regWrite (s : State) (q : Requester) (a v : Nat) : State :=
  if s.accessStatus a ≠ stOk then s.status (s.accessStatus a)
  else
    match regFind a with
    | none => s.status stOk
    | some (r, idx) =>
      if 0x02000000 ≤ a ∧ a < 0x03C00000 then s.clusterWrite q r idx v
      else if 0x00200000 ≤ a ∧ a < 0x00800000 then s.frontWrite q r idx v
      else if 0x00800000 ≤ a ∧ a < 0x01000000 then s.lndWrite q r idx v
      else if 0x01000000 ≤ a ∧ a < 0x01200000 then s.pwrWrite q r idx v
      else if 0x01400000 ≤ a ∧ a < 0x01800000 then s.tideWrite q r idx v
      else if 0x01200000 ≤ a ∧ a < 0x01C00000 then s.clkWrite q r idx v
      else if 0x03C00000 ≤ a then s.dbgWrite q r idx v
      else
        let s := s.plainWrite q (s.rightsOf q).dadmin r idx v
        -- a write of LOGLOST stands for the losses before it
        if r == .MGT_CNT && s.lastStat == stOk then s.modMp (fun m => { m with lost := satAdd 32 m.lost m.late, late := 0 }) else s

end Sys2Proof.Machine
end

