-- ==== Sys2Proof/Machine/Firm.lean ====
section
/-! DEFINITION. The firmware of the MP (R469, R488-R491), the load of the MP (R467), its sensors (R470), the persistent log
(R485), fatal errors and the dump (R486, R487), and the attestation report (R492). -/

namespace Sys2Proof.Machine

/-- The image in a slot: 0 A, 1 B. -/
def State.slotImg (s : State) (k : Nat) : Bytes := if k = 0 then s.mp.slotA else s.mp.slotB

/-- The active slot. -/
def State.slot (s : State) : Nat := s.fld F.MGT_STAT.SLOT []

/-! ### Images (R488-R490) -/

/-- FIRMWARE_IMAGE_CHECK (R489): the cause of the first check that fails. -/
def State.fwCheck (s : State) (img : Bytes) : Option Nat :=
  let n := leAt img 0x10 4
  let body := slice img 512 n
  let key := slice img 0xC0 96
  let k := leAt img 6 1
  if slice img 0 4 != asciiBytes "AKFW" || leAt img 4 2 != 1 || decide (196096 < n) || decide (img.length < 512 + n) ||
      leAt img 0x18 4 != crc32 body then some 3
  else if leAt img 0x0C 4 < s.fuses.svnmin.toNat then some 2
  else if decide (3 < k) || s.fuses.keys[k]? != some (sha384 key) || s.fuses.revoked.getLsbD k then some 1
  else if !ecdsaOk (sha384 (slice img 0 0x60)) (slice img 0x60 96) key || slice img 0x30 48 != sha384 body then some 1
  else none

/-- The image of a slot runs (R494, R495). -/
def State.runImage (s : State) (k : Nat) : State :=
  let img := s.slotImg k
  s.setFlds [] [(F.MGT_STAT.MPST, 1), (F.MGT_STAT.SLOT, k), (F.MGT_STAT.FWVER, imgVer img), (F.ID_VER.FWVER, imgVer img),
    (F.ID_SEC.BOOTOK, 1), (F.ID_SEC.KEYIDX, leAt img 6 1)]

/-- USTAT of OD 0x7002:05. -/
def State.setUstat (s : State) (v : Nat) : State := s.odSet 0x7002 5 1 v

/-- R490, R483: an image is written to a slot: not to the one that runs, and not one too long. -/
def State.imageWrite (s : State) (q : Requester) (k : Nat) (img : Bytes) : State :=
  if !s.holds q 5 0 then s.deny q (0x7001 * 256 + k + 1)
  else if 196608 < img.length then s.status stType
  else if s.mpst ≠ 0 ∧ s.slot = k then s.status stInvalid
  else (s.modMp (fun m => if k = 0 then { m with slotA := img } else { m with slotB := img })).status stOk

/-- R490, R491: ACTIVATE: the slot's image is checked, and a swap is pending; another one replaces it. (log 56, DESIGN CHOICE) -/
def State.activateFw (s : State) (q : Requester) (k : Nat) : State :=
  if !s.holds q 5 0 then s.deny q (0x7002 * 256 + 3)
  else if 1 < k ∨ s.mpst ≠ 1 ∨ k = s.slot then s.status stInvalid
  else
    match s.fwCheck (s.slotImg k) with
    | none => ((s.modMp (fun m => { m with swap := some k })).setUstat 2).status stOk
    | some c => (((s.modMp (fun m => { m with swap := none })).setUstat 5).post 0x0906 0x01 partNone locNone k c).status stOk

/-- R489: COMMIT: SVNMIN is raised for good. -/
def State.commitSvn (s : State) (q : Requester) (v : Nat) : State :=
  if !s.holds q 5 0 then s.deny q (0x7002 * 256 + 4)
  else if v < s.fuses.svnmin.toNat ∨ s.mpst = 0 ∨ leAt (s.slotImg s.slot) 0x0C 4 < v then s.status stInvalid
  else { s with fuses := { s.fuses with svnmin := BitVec.ofNat 32 v } }.status stOk

/-! ### Attestation (R492) -/

/-- R492: NONCE starts a report and discards one that is pending. -/
def State.nonceWrite (s : State) (b : Bytes) : State :=
  if 48 < b.length then s.status stType
  else if b.length ≠ 48 then s.status stInvalid
  else (s.modMp (fun m => { m with nonce := some b, report := none })).status stOk

/-- The report of R492; its signature is a free value. (log 16, DESIGN CHOICE) -/
def State.attest (s : State) (nonce : Bytes) : Bytes :=
  let dig := slice (((SMap.find s.od (0x4120 * 256 + 1)).getD [])) 0 48
  let head := asciiBytes "AKAT" ++ leBytes 2 1 ++ leBytes 1 s.pos ++ [0] ++ leBytes 8 s.fuses.serial.toNat ++ nonce ++
    slice s.fuses.romHash 0 48 ++ slice (s.slotImg s.slot) 0x30 48 ++ dig ++ leBytes 8 (s.odNat 0x4120 2 0) ++
    leBytes 4 (s.fld F.MGT_STAT.FWVER []) ++ leBytes 4 s.fuses.svnmin.toNat ++ leBytes 1 (b2n s.sealed) ++ List.replicate 31 0
  head ++ (List.range 96).map (Config.attestByte s.free)

/-- ATTESTATION_REPORT_READY (R492). -/
def execAttestationReportReady (s : State) : Res := onMp s fun s =>
  match s.mp.nonce with
  | some n => s.takeFree.1.modMp (fun m => { m with nonce := none, report := some (s.attest n) })
  | none => s

/-! ### Telemetry (R470) -/

/-- The readings of a list of instances, from subindex 1. -/
def State.putReadings (s : State) (ix n count : Nat) (f : Nat → Nat) : State :=
  (List.range count).foldl (fun a k => a.odSet ix (k + 1) n (f k % 2 ^ (8 * n))) s

/-- TELEMETRY_SAMPLE: the readings of one kind of sensor are published. -/
def execTelemetrySample (r : Telemetry) (s : State) : Res := onMp s fun s =>
  if s.mpst ≠ 1 then s
  else
    match r with
    | .thermal t => s.putReadings 0x4300 2 64 (fun k => wrapN 16 (listGet 0 t k))
    | .rails v => s.putReadings 0x4301 4 36 (fun k => (listGet (0, 0) v k).1 % 2 ^ 16 * 2 ^ 16 + (listGet (0, 0) v k).2 % 2 ^ 16)
    | .droop v => s.putReadings 0x4304 1 25 (fun k => min 255 (listGet 0 v k))
    | .eye v =>
      let s := s.putReadings 0x4302 2 32 (fun k => (listGet (0, 0) v k).1)
      (List.range 32).foldl (fun a k => a.eyeSample (k / 4) (k % 4) (listGet (0, 0) v k).1 (listGet (0, 0) v k).2) s
    | .process v => s.putReadings 0x4303 2 8 (listGet 0 v)

/-! ### The persistent log (R483, R485) -/

/-- PERSISTENT_LOG_COPY (R485): the ring-log records that were not copied go to their slots; the header follows once every one
of them is acknowledged. Where no landing reaches the log, nothing is copied. (log 56, DESIGN CHOICE) -/
def execPersistentLogCopy (s : State) : Res := onCore s fun s =>
  let base := s.odNat 0x6000 1 0
  let nrec := s.logRecs
  let w := if s.mp.plNew then 0 else s.odNat 0x6000 3 0
  let n := min s.mp.rlNew 256
  if s.mpst ≠ 1 ∨ n = 0 ∨ s.mp.plN ≠ 0 ∨ !s.mapped base 64 ∨ !s.mapped (base + 64) (32 * nrec) then s
  else
    let recs := (s.ringLog.take n).reverse
    let x := (recs.zip (List.range n)).foldl (fun (a : State × Bool × List Nat) e =>
      if a.2.1 then
        let r := a.1.writeLines (base + 64 + 32 * ((w + e.2) % nrec)) (eventBytes e.1) 2
        (r.1, r.2.1, a.2.2 ++ r.2.2)
      else a) (s, true, [])
    if x.2.1 then x.1.modMp (fun m => { m with plN := n, plOver := 0, plOut := x.2.2 }) else x.1

/-! ### The dump (R486, R487) -/

/-- Every index of a register array. -/
def allIdx : List (Nat × Nat) → List (List Nat)
  | [] => [[]]
  | (n, _) :: r => (List.range n).flatMap (fun k => (allIdx r).map (k :: ·))

/-- The registers of section 1: every register of the blocks, and of TDE those below offset 0x10_0000. (log 56, DESIGN CHOICE) -/
def dumpRegs : List (RegId × List Nat) :=
  let l := (blockRegs.filter (fun r => !([RegId.TDE_TAL, .TDE_TCNT, .TDE_TLEG, .TDE_TCFG].contains r))).flatMap (fun r =>
    (allIdx (regPlace r).dims).map (fun ix => (r, ix)))
  l.mergeSort (fun a b => decide (regAddr a.1 a.2 ≤ regAddr b.1 b.2))

/-- The bytes of section `id`. (log 16, DESIGN CHOICE) -/
def State.dumpSection (s : State) (id : Nat) : Bytes :=
  match id with
  | 1 => dumpRegs.flatMap (fun x => leBytes 4 (regAddr x.1 x.2) ++ leBytes 4 0 ++ leBytes 8 (match x.1 with
      -- R460: the time of a recovery that is pending runs on
      | .FLT_PREC => s.precWord x.2 (s.free + listGet 0 x.2 0)
      | r => s.readWord r x.2))
  | 2 => s.ringLogBytes
  | 3 => s.evq.flatMap eventBytes
  | 4 => (List.range 37).flatMap (fun k => leBytes 8 (Config.mpCore s.mp.coreGen k).toNat)
  | 5 => ((List.range 1250).filter (fun c => s.enabled c &&
      (s.bit F.CLU_CSITE.FEN [c] || s.bit F.CLU_CSITE.PERM [c] || s.pilot c == 6))).flatMap (fun c =>
      leBytes 4 c ++ leBytes 4 0 ++ leBytes 8 (s.word .CLU_PSTAT [c]) ++ leBytes 8 (s.word .CLU_PFAULT [c]) ++
        leBytes 8 (s.word .CLU_CSITE [c]))
  | _ => (List.range 0x20000).map (Config.mpData s.mp.dataGen)

/-- The sections of a dump that fit in its region: each one that would pass it is left out with every later one. -/
def fitSections (limit : Nat) : Nat → List Bytes → List Bytes → List Bytes
  | _, kept, [] => kept
  | used, kept, b :: r =>
    if 0x40 + 16 * (kept.length + 1) + used + b.length ≤ limit then fitSections limit (used + b.length) (kept ++ [b]) r else kept

/-- The directory of a dump, from the offset of its first section. -/
def dumpDir : Nat → Nat → List Bytes → Bytes
  | _, _, [] => []
  | id, off, b :: r => leBytes 2 id ++ leBytes 2 0 ++ leBytes 4 off ++ leBytes 4 b.length ++ leBytes 4 0 ++ dumpDir (id + 1) (off + b.length) r

/-- R464: firmware that runs has put into its registers and its data region what the spec does not state: a free value; what
does not run leaves them as they were. (log 16, DESIGN CHOICE) -/
def State.mpMemory (s : State) : State :=
  if s.mpst = 1 then
    let x := s.takeFree
    x.1.modMp (fun m => { m with dataGen := x.2, coreGen := x.2 })
  else s

/-- DUMP_WRITE (R487): the sections in ascending ID, the directory, and the header last; what DUMPSTAT then reads, and LEN. -/
def State.dump (s : State) (cause timeUs : Nat) : State :=
  let limit := 1024 * s.odNat 0x6000 6 0
  let base := s.odNat 0x6000 5 0
  let finish := fun (s : State) (stat len : Nat) => (s.odSet 0x6000 7 1 stat).post 0x0908 0x01 partNone locNone cause len
  if limit = 0 ∨ !s.mapped base limit ∨ s.bit F.PWR_TSTAT.TRIP [] then finish s 4 0
  else
    let s := s.mpMemory
    let ids := if cause = 1 then 5 else 6
    let all := (List.range ids).map (fun k => s.dumpSection (k + 1))
    let secs := fitSections limit 0 [] all
    let trunc := decide (secs.length < ids)
    let off := 0x40 + 16 * secs.length
    let body := secs.flatten
    let dir := dumpDir 1 off secs
    let len := off + body.length
    let head := asciiBytes "AKDUMP01" ++ leBytes 2 1 ++ leBytes 2 cause ++ leBytes 4 secs.length ++
      leBytes 8 (s.fld F.TDE_TNUM.NUM []) ++ leBytes 8 timeUs ++ leBytes 4 (s.fld F.MGT_STAT.FWVER []) ++ leBytes 1 s.pos ++
      leBytes 1 (b2n trunc + 2) ++ leBytes 2 0 ++ leBytes 4 len ++ leBytes 4 (crc32 (dir ++ body)) ++ List.replicate 16 0
    let s : State := { s with free := s.free + 16 }
    let x := s.writeLines (base + off) body (body.length + 1)
    let y := if x.2.1 then x.1.writeLines (base + 0x40) dir (dir.length + 1) else x
    let z := if y.2.1 then y.1.writeLines base head 2 else y
    if z.2.1 then finish z.1 (if trunc then 3 else 2) len else finish z.1 4 0

/-- R486: every partition stops with STATUS 0x13 and FCODE 0x45. (log 56, DESIGN CHOICE) -/
def State.stopAll (s : State) (fcode : Nat) (which : Nat → Bool) : State :=
  (List.range 16).foldl (fun a p =>
    if (a.part p).live && which p then a.stopVoyage p ⟨0x13, 0xFFFFFFFF, fcode, 0, 0, (a.part p).scyc⟩ else a) s

/-- R486: a fatal error: 1 MP memory, 2 fault unit or security block, 3 watchdog. -/
def State.fatal (s : State) (cause timeUs : Nat) : State :=
  let s := ((s.stopAll 0x45 (fun _ => true)).cohPump).dump cause timeUs
  if cause = 3 then s.dieReset 4 else s.setFld F.MGT_STAT.MPST [] 4

/-- FATAL_ERROR (R486): under a trip as well: the MP runs on the always-on rail. -/
def execFatalError (cause : Fin 4) (timeUs : Nat) (s : State) : Res := onMp s fun s =>
  if cause.val = 0 ∨ s.mpst = 4 then s else s.fatal cause.val timeUs

/-- R486: a write of DUMPREQ: firmware takes a dump with CAUSE 4. -/
def State.dumpreqWrite (s : State) (q : Requester) (v timeUs : Nat) : State :=
  if !s.holds q 2 0 then s.deny q (0x6000 * 256 + 8)
  else if v ≠ 1 then s.status stInvalid
  else (s.dump 4 timeUs).status stOk

end Sys2Proof.Machine
end

