-- ==== Sys2Proof/Machine/Bringup.lean ====
section
/-! DEFINITION. Bring-up (R431-R440, R493, R501): the steps, the defect maps, the training ledgers; and the reference clock
(R451, R452). -/

namespace Sys2Proof.Machine

/-- Change the entries of bring-up. -/
def State.modBring (s : State) (f : Bring → Bring) : State := { s with bring := f s.bring }

/-- Step `k` has completed since reset. -/
def State.done (s : State) (k : Nat) : Bool := bitAt s.bring.doneMask k

/-- Step `k` is BUSY. -/
def State.stepping (s : State) (k : Nat) : Bool := s.bring.status == 1 && s.bring.step == k

/-- The work of the step in progress ends: 0 well, else with the cause of R434. -/
def State.worked (s : State) (cause : Nat) : State := s.modBring (fun b => { b with work := some cause })

/-- R452: a through-sailing partition has a voyage in progress, be it still in LOAD or READY. -/
def State.throughVoyage (s : State) (p : Nat) : Bool :=
  s.sailsThrough p || (!(s.members p).isEmpty && manVoyage (s.front p).man && [4, 5].contains (s.fld F.FE_PSTAT.STATE [p]))

/-- R432, R452, R523, R525: a write of a step code is accepted, or refused with a status. -/
def State.stepStatus (s : State) (c : Nat) : Nat :=
  let b := s.bring
  let order := c == 1 || s.done (c - 1) || b.failed == some c || ((c == 8 || c == 9) && s.done 11)
  if s.bit F.DBG_LOOP.BUSY [] then stBusy
  else if c = 0 ∨ 11 < c ∨ b.status = 1 ∨ !order then stInvalid
  else if s.bit F.DBG_CTL.SATEST [] && decide (9 ≤ c) then stInvalid
  else if c = 8 ∧ s.done 11 ∧ (List.range 16).any s.throughVoyage then stInvalid
  else stOk

/-- R431: a write of STEP starts the step. -/
def State.startStep (s : State) (c : Nat) : State :=
  if s.stepStatus c ≠ stOk then s.status (s.stepStatus c)
  else
    (s.modBring (fun b => { b with
      step := c, status := 1, cause := 0, elapsed := 0, work := none, agree := if c = 10 then 0 else b.agree })).status stOk

/-- A step's row acts while that step is BUSY and has done no work yet. -/
def State.stepWork (s : State) (c : Nat) (f : State → State) : State :=
  if s.stepping c && s.bring.work.isNone then f s else s

/-! ### PROBE, FIRMWARE, STRAPS -/

/-- STEP_PROBE (R434): the fuse CRC and the check of the ROM. -/
def execStepProbe (fuseOk romOk : Bool) (s : State) : Res := onMp s fun s =>
  s.stepWork 1 (fun s => s.worked (if !fuseOk then 1 else if !romOk then 2 else 0))

/-- STEP_FIRMWARE (R434, R489): the boot ROM checks slot PREF and starts it. (log 30, DESIGN CHOICE) -/
def execStepFirmware (s : State) : Res := onMp s fun s =>
  s.stepWork 2 fun s =>
    let k := s.odNat 0x7002 2 0
    match s.fwCheck (s.slotImg k) with
    | none => (s.runImage k).worked 0
    | some c => (s.post 0x0906 0x01 partNone locNone k c).worked c

/-- STEP_STRAPS (R434, R501): four samples that agree, with the position sampled at reset; R377 applies. -/
def execStepStraps (samples : List Straps) (s : State) : Res := onMp s fun s =>
  s.stepWork 3 fun s =>
    let l := samples.take 4
    let first := l.head?.getD s.pads.straps
    if l.any (fun x => x.pos != s.pads.straps.pos) then s.worked 1
    else if l.any (fun x => x.orient != first.orient) then s.worked 2
    else if l.any (fun x => x.hcand != first.hcand) then s.worked 3
    else
      let s := s.modPads (fun p => { p with straps := first })
      let s := s.setFlds [] [(F.ID_STRAP.POS, first.pos.toNat), (F.ID_STRAP.ORIENT, b2n first.orient),
        (F.ID_STRAP.HCAND, b2n first.hcand), (F.CLK_REF.HCAND, b2n first.hcand)]
      s.setDrv.worked 0

/-! ### TRAIN and the ledgers (R434-R436) -/

/-- A landing trains anew: what followed its modules follows that they carry nothing. -/
def State.retrainLanding (s : State) (l : Nat) : State := (s.landTrain l).moduleSet l

/-- STEP_TRAIN (R434): every enabled landing trains. (log 26, DEDUCED) -/
def execStepTrain (s : State) : Res := onCore s fun s =>
  s.stepWork 4 fun s =>
    (lands8.foldl (fun a l => if a.bit F.LND_CTL.EN [l] && a.lstate l != 1 then a.retrainLanding l else a) s).worked 0

/-- The data lane that each redundant lane of a module replaces (R375, R435): of the marked lanes of each half the lowest
two; 0xFF none. (log 32, DESIGN CHOICE) -/
def State.repairs (s : State) (l m : Nat) : List Nat :=
  let f := s.fld F.LND_FAIL.FAIL [l, m]
  [0, 32].flatMap (fun b => (((List.range 32).map (· + b)).filter (bitAt f) ++ [0xFF, 0xFF]).take 2)

/-- Record of module `m` in the ledger of landing `l` (R435). (log 17, DESIGN CHOICE) -/
def State.ledgerModule (s : State) (l m : Nat) : Bytes :=
  let ana := fun (off n : Nat) => (List.range n).map (fun i => Config.ledgerByte s.free l m (off + i))
  leBytes 1 (s.mst l m) ++ leBytes 1 (s.fld F.LND_MOD.RUSED [l, m]) ++ (s.repairs l m).flatMap (leBytes 1) ++ ana 6 4 ++ [0, 0] ++
    ana 0xC 68 ++ List.replicate 32 0

/-- The ledger of a landing that is UP (R435). -/
def State.newLedger (s : State) (l : Nat) : Bytes :=
  let head := [1] ++ leBytes 1 l ++ leBytes 1 (s.fld F.LND_STAT.RATE [l]) ++ leBytes 1 (s.fld F.LND_STAT.PROTO [l]) ++
    leBytes 1 (s.fld F.LND_STAT.PPOS [l]) ++ leBytes 1 (s.fld F.ID_STRAP.ORIENT []) ++
    leBytes 2 (bits (s.word .LND_CAPP [l, 0]) 48 16) ++ leBytes 2 (bits (s.word .LND_CAPP [l, 1]) 0 16) ++
    leBytes 2 (wrapN 16 (sext 12 (s.fld F.PWR_TSTAT.TJ []))) ++ leBytes 4 (s.fld F.MGT_STAT.FWVER []) ++ List.replicate 16 0
  let body := head ++ (List.range 4).flatMap (s.ledgerModule l) ++ List.replicate 28 0
  body ++ leBytes 4 (crc32 body)

/-- The end of TRAIN: GBW is DBW as it stands, and the ledgers are written. (log 32, DESIGN CHOICE) -/
def State.trainDone (s : State) : State :=
  let s := s.newDbw
  let s : State := { s.takeFree.1 with gbw := s.dbw }
  lands8.foldl (fun a l =>
    if 2 ≤ a.lstate l then { a with od := SMap.put a.od ((0x1210 + l) * 256 + 1) (a.newLedger l) } else a) s

/-! ### The maps (R437-R440) -/

/-- R437: a record names a site. -/
def recNames (b : Bytes) : Bool :=
  let k := leAt b 0 1
  decide (1 ≤ k) && decide (k ≤ 4) && decide (leAt b 1 1 < 50) && decide (leAt b 2 1 < 25) &&
    (decide (3 ≤ k) || decide (leAt b 3 1 ≤ 65)) && (k != 2 || (decide (leAt b 4 1 ≤ 1) && decide (leAt b 5 1 ≤ 8)))

/-- The records of a map blob, 8 bytes each. -/
def mapRecords (b : Bytes) : List Bytes := (List.range (leAt b 2 2)).map (fun i => slice b (16 + 8 * i) 8)

/-- A record from its 8 bytes. -/
def recOfBytes (b : Bytes) : DefectRec :=
  let at_ := fun (i : Nat) => BitVec.ofNat 8 (leAt b i 1)
  ⟨at_ 0, at_ 1, at_ 2, at_ 3, at_ 4, at_ 5, at_ 6⟩

/-- The checks of MAP (R434): 1 the header or CRC, 2 a record names no site, 3 the grade fields differ from the fuses. -/
def State.mapCheck (s : State) (b : Bytes) : Option Nat :=
  let n := leAt b 2 2
  let f := s.fuses
  let cols := (f.dcol ++ List.replicate 5 0xFF).take 5
  if b.length < 16 ∨ 4096 < n ∨ b.length ≠ 16 + 8 * n ∨ leAt b 0 1 ≠ 1 ∨ leAt b 1 1 ≠ 1 ∨
      leAt b 12 4 ≠ crc32 (slice b 0 12 ++ b.drop 16) then some 1
  else if !(mapRecords b).all recNames then some 2
  else if slice b 4 7 ≠ [f.grade, f.drow] ++ cols then some 3
  else none

/-- A write of OD 0x1102: a map that passes the checks is the field map; another is kept as it is, for MAP to refuse. (log 29, DESIGN CHOICE) -/
def State.fieldMapWrite (s : State) (b : Bytes) : State :=
  if (s.mapCheck b).isNone then
    { s with fmap := (mapRecords b).map recOfBytes, od := SMap.del s.od (0x1102 * 256 + 1) }
  else { s with od := SMap.put s.od (0x1102 * 256 + 1) b }

/-- Put the registers that a predicate names back to their reset words. -/
def State.clearRegs (s : State) (p : RegId → Bool) : State :=
  s.regs.foldl (fun a e => match regFind e.1 with
    | some (r, idx) => if p r then a.setWord r idx (resetWord r idx) else a
    | none => a) s

/-- R438: a core site is bad: a TYPE 1 record, lane S of a row, or two lanes of a row. (log 29, DESIGN CHOICE) -/
def siteBad (rs : List DefectRec) (site : Nat) : Bool :=
  let here := rs.filter (fun r => r.site.toNat == site)
  let lanes := fun (row : Nat) =>
    nub ((here.filter (fun r => r.kind.toNat == 2 && r.row.toNat == row)).map (fun r => r.lane.toNat))
  here.any (fun r => r.kind.toNat == 1) || (lanes 0).contains 8 || (lanes 1).contains 8 || decide (2 ≤ (lanes 0).length) ||
    decide (2 ≤ (lanes 1).length)

/-- The records of both maps that name the physical site of a cluster. -/
def State.recsOf (s : State) (c : Nat) : List DefectRec :=
  let xy := s.physOf c
  (s.fuses.recs ++ s.fmap).filter (fun r => r.px.toNat == xy.1 && r.py.toNat == xy.2)

/-- R438: the maps of one cluster. (log 29, DESIGN CHOICE) -/
def State.mapCluster (s : State) (c : Nat) : State :=
  let rs := s.recsOf c
  let bad := (List.range 66).filter (siteBad rs)
  let good := (List.range 66).filter (fun x => !bad.contains x)
  let router := rs.any (fun r => r.kind.toNat == 4)
  let few := decide (good.length < 64)
  let perm := router || few || rs.any (fun r => r.kind.toNat == 3)
  let s := bad.foldl (fun a x => a.markBad c x) s
  let s := s.setFlds [c] [(F.CLU_CSITE.PERM, b2n perm), (F.CLU_CSITE.FCAUSE, if router then 5 else if few then 6 else 0),
    (F.CLU_CSITE.NSPARE, if perm then 0 else good.length - 64)]
  let s := if router then s.setFld F.CHN_RCFG.RFEN [c] 1 else s
  if perm then s else (good.take 64).zipIdx.foldl (fun a x => a.placeCore c x.2 x.1) s

/-- The enabled clusters that a list of records names. -/
def State.recClusters (s : State) (rs : List DefectRec) : List Nat :=
  (List.range 1250).filter (fun c => s.enabled c && (let xy := s.physOf c
    rs.any (fun r => r.px.toNat == xy.1 && r.py.toNat == xy.2)))

/-- R438: the maps are built anew from the union of both defect maps. (log 29, DESIGN CHOICE) -/
def State.buildMaps (s : State) : State :=
  let fenced := (List.range 1250).filter (fun c => s.inPart c && s.bit F.CLU_CSITE.FEN [c])
  let routers := (List.range 1250).filter (fun c => s.bit F.CHN_RCFG.RFEN [c])
  let s := s.clearRegs (fun r => [RegId.CLU_CMAP, .CLU_LMAP, .CLU_CBAD_0, .CLU_CSITE].contains r)
  let s := routers.foldl (fun a c => a.setFld F.CHN_RCFG.RFEN [c] 0) s
  let s := fenced.foldl (fun a c => a.setFld F.CLU_CSITE.FEN [c] 1) s
  (s.recClusters (s.fuses.recs ++ s.fmap)).foldl (fun a c => a.mapCluster c) s

/-- STEP_MAP (R434, R438). -/
def execStepMap (s : State) : Res := onCore s fun s =>
  s.stepWork 5 fun s =>
    match (SMap.find s.od (0x1102 * 256 + 1)).bind s.mapCheck with
    | some c => s.worked c
    | none => s.buildMaps.worked 0

/-- R440: the events of a cluster whose maps have changed from those of `t`. (log 30, DESIGN CHOICE) -/
def State.mapEvents (s t : State) (c : Nat) : State :=
  if s.bit F.CLU_CSITE.PERM [c] then
    if t.bit F.CLU_CSITE.PERM [c] then s
    else s.post 0x0802 0x18 partNone c (s.fld F.CLU_CSITE.FCAUSE [c]) partNone
  else
    (List.range 64).foldl (fun a n =>
      let old := t.siteOf c n
      let new := s.siteOf c n
      if old ≠ new then a.post 0x0803 0x18 partNone c n (old * 256 + new)
      else [0, 1].foldl (fun a row =>
        let f := if row = 0 then F.CLU_LMAP.BYP_A else F.CLU_LMAP.BYP_B
        let b := s.fld f [c, n]
        if b ≠ 0xF ∧ t.fld f [c, n] = 0xF then a.post 0x0804 0x18 partNone c n (row * 16 + b) else a) a) s

/-- STEP_TEST (R434, R438, R440): what the self-tests find joins the field map, and the maps are built again. A defect for
which the map has no room is applied all the same, with event 0x080F. (log 5, DESIGN CHOICE) -/
def execStepTest (engineOk : Bool) (defects : List DefectRec) (s : State) : Res := onCore s fun s =>
  s.stepWork 6 fun s =>
    if !engineOk then s.worked 1
    else
      let ds := (defects.filter (fun d => recNames (recBytes d))).map (fun d => { d with src := 1 })
      let room := 4096 - s.fmap.length
      let cs := s.recClusters ds
      let all : State := { s with fmap := s.fmap ++ ds }
      let s1 : State := { all.buildMaps with fmap := s.fmap ++ ds.take room }
      let s2 := cs.foldl (fun a c => a.mapEvents s c) s1
      let s3 := (ds.drop room).foldl (fun a d =>
        a.post 0x080F 0x18 partNone (((s.recClusters [d]).head?).getD locNone) d.kind.toNat 0) s2
      s3.worked 0

/-- STEP_ZERO (R434): every store, shadow, tally, berth table, sailing table and instruction store is zero. -/
def execStepZero (engineOk : Bool) (s : State) : Res := onCore s fun s =>
  s.stepWork 7 fun s =>
    if !engineOk then s.worked 1
    else
      let s : State := { s with cl := [], tnet := [] }
      (s.clearRegs (fun r => [RegId.CLU_BERTH, .TDE_TAL, .TDE_TCNT, .TDE_TLEG].contains r)).worked 0

/-! ### CLOCK, HELM, SEAL, RUN -/

/-- Every PLL is locked, or none is. (log 27, DESIGN CHOICE) -/
def State.setPlls (s : State) (on : Bool) : State :=
  s.setFlds [] [(F.CLK_REF.LOCK, b2n on), (F.CLK_PLL.CORE, b2n on), (F.CLK_PLL.RING, b2n on), (F.CLK_PLL.MGMT, b2n on),
    (F.CLK_PLL.LAND, if on then 0xFF else 0)]

/-- STEP_CLOCK (R434, R451, R452): REFSEL applies and the PLLs lock anew, which drops the fixed-latency landings (R389);
before tides run CCLK is set at once; the landings that are DOWN and those that ask for fixed-latency mode train. (log 26, DEDUCED) -/
def execStepClock (s : State) : Res := onCore s fun s =>
  s.stepWork 8 fun s =>
    let s := (s.setFld F.CLK_REF.REFSEL [] (s.odNat 0x3010 1 0)).setPlls false
    let s := if s.tide.begun then s else s.setCclk (s.odNat 0x3010 2 2000000)
    let s := lands8.foldl (fun a l => if a.lstate l = 3 then a.landDown l else a) s
    let again := fun (s : State) (l : Nat) => s.bit F.LND_CTL.EN [l] &&
      (s.lstate l == 0 || (s.bit F.LND_CTL.FLREQ [l] && s.lstate l == 2))
    (lands8.foldl (fun a l => if again a l then a.retrainLanding l else a) s).worked 0

/-- STEP_HELM (R434): the member waits for the claim and for tide 0. -/
def execStepHelm (s : State) : Res := onCore s (fun s => s.stepWork 9 (fun s => s.worked 0))

/-- STEP_SEAL (R434, R493): once the digests have agreed at two successive tides the configuration is sealed. -/
def execStepSeal (s : State) : Res := onCore s fun s =>
  s.stepWork 10 fun s =>
    if s.bring.agree < 2 then s
    else
      let s := (s.setFld F.ID_SEC.SEALED [] 1).setFld F.MGT_STAT.SEALED [] 1
      (s.post 0x0907 0x01 partNone locNone (s.odNat 0x2000 1 0) 0).worked 0

/-- STEP_RUN (R434): the front end, the ferry engines and the chart unit are enabled. -/
def execStepRun (s : State) : Res := onCore s fun s =>
  s.stepWork 11 fun s =>
    let s := s.feCtlWrite (2 ^ 63 + 2 ^ 62)
    ((s.setFld F.FRY_CTL.EN [] 1).setFld F.CHT_CTL.EN [] 1).worked 0

/-- The landings that are enabled and DOWN (LDOWN of R431). -/
def State.ldown (s : State) : Nat :=
  lands8.foldl (fun a l => if s.bit F.LND_CTL.EN [l] && s.lstate l == 0 then a + 2 ^ l else a) 0

/-- An enabled landing is still in TRAIN. -/
def State.training (s : State) : Bool := lands8.any (fun l => s.bit F.LND_CTL.EN [l] && s.lstate l == 1)

/-- R434: how a step ends: 0 DONE, else the cause of its failure; none while its work goes on. (log 28, DESIGN CHOICE) -/
def State.stepResult (s : State) : Option Nat :=
  match s.bring.step, s.bring.work with
  | 4, some c => if s.training then none else some (if c = 0 ∧ lands8.all (fun l => s.lstate l < 2) then 1 else c)
  | 8, some c =>
    let sel := if s.bit F.CLK_REF.REFSEL [] then F.CLK_REF.CAND1 else F.CLK_REF.CAND0
    if s.training then none else some (if c ≠ 0 then c else if s.bit F.CLK_REF.LOCK [] then 0 else if s.bit sel [] then 2 else 1)
  | 9, some _ =>
    some (if s.hstate = 0 then 1 else if s.hstate = 3 ∨ !s.tide.begun ∨ s.tst ≠ 0 then 2 else 0)
  | 10, w => some (w.getD 1)
  | _, w => w

/-- What a step that is DONE leaves beside its entries. -/
def State.stepEffect (s : State) (c : Nat) : State :=
  match c with
  | 3 => s.setFld F.ID_STRAP.VALID [] 1
  | 4 => s.trainDone
  | 9 => s.setDrv
  | _ => s

/-- STEP_DONE (R431). -/
def execStepDone (elapsedUs : Nat) (s : State) : Res := onMp s fun s =>
  if s.bring.status ≠ 1 then s
  else
    match s.stepResult with
    | none => s
    | some cause =>
      let c := s.bring.step
      let ok := decide (cause = 0)
      let s := s.modBring (fun b => { b with
        status := if ok then 2 else 3
        cause := if ok then 0 else c * 256 + cause
        doneMask := if ok then Nat.lor b.doneMask (2 ^ c) else b.doneMask
        elapsed := min elapsedUs (2 ^ 32 - 1)
        failed := if ok then none else some c
        ldown := if c = 4 ∨ c = 8 then s.ldown else b.ldown
        work := none })
      if ok then s.stepEffect c else s

/-! ### The reference clock (R451, R452) -/

/-- REFERENCE_LOCK (R451): the PLLs lock to the selected candidate, where it carries a clock. -/
def execReferenceLock (s : State) : Res := onCore s fun s =>
  let sel := s.fld F.CLK_REF.REFSEL []
  if s.bit F.CLK_REF.LOCK [] then s
  else
    let s := (s.setPlls true).setFld F.CLK_REF.HOLD [] 0
    s.post 0x0809 0x12 partNone locNone sel (s.fld F.CLK_CCLK.CUR [])

/-- CANDIDATE_CLOCK_CHANGE (R452). -/
def execCandidateClockChange (cand : Fin 2) (clocked : Bool) (s : State) : Res := onMp s fun s =>
  s.setFld (if cand.val = 0 then F.CLK_REF.CAND0 else F.CLK_REF.CAND1) [] (b2n clocked)

/-- CANDIDATE_EDGE_TIMEOUT (R452): the selected candidate is lost: the PLLs hold over, every through-sailing partition is
stopped under R443 and ends with FCODE 0x41, and after that stop the fixed-latency landings go DOWN. (log 82, DEDUCED) -/
def execCandidateEdgeTimeout (s : State) : Res := onCore s fun s =>
  if !s.bit F.CLK_REF.LOCK [] then s
  else
    let sel := s.fld F.CLK_REF.REFSEL []
    let s := (s.setPlls false).setFlds [] [(F.CLK_REF.HOLD, 1), (if sel = 0 then F.CLK_REF.CAND0 else F.CLK_REF.CAND1, 0)]
    let s := s.incFld F.CLK_REF.LOSS [] 1
    let s := (List.range 16).foldl (fun a p =>
      if a.sailsThrough p then a.endAhead p ⟨0x13, 0xFFFFFFFF, 0x41, 0, 0, (a.part p).stopCyc⟩ else a) s
    (s.refDown.post 0x0808 0x12 partNone locNone sel 0).cohPump

/-- HOLDOVER_EXPIRY (R452): LOCK has not returned 20 ms after the loss. (log 27, DESIGN CHOICE) -/
def execHoldoverExpiry (s : State) : Res := onCore s fun s =>
  if s.bit F.CLK_REF.HOLD [] && !s.bit F.CLK_REF.LOCK [] then
    let s := (s.setFld F.CLK_REF.HOLD [] 0).stopAll 0x41 (fun _ => true)
    (lands8.foldl (fun a l => a.landDown l) s).cohPump
  else s

end Sys2Proof.Machine
end

