-- ==== Sys2Proof/Machine/Mgt.lean ====
section
/-! DEFINITION. Management requests (R465, R471-R483): the register bridge, the dictionary, its staging and its order of
service. -/

namespace Sys2Proof.Machine

/-! ### Responses (R478, R481, R482) -/

/-- Opcodes of R479. -/
abbrev opRreg : Nat := 0
abbrev opWreg : Nat := 1
abbrev opOdrd : Nat := 2
abbrev opOdwr : Nat := 3
abbrev opOddesc : Nat := 4

/-- R478: a response: opcode, status, the address and offset of the request, LEN, AUX, and the data. -/
structure Reply where
  op : Nat
  stat : Nat
  addr : Nat
  off : Nat
  len : Nat
  aux : Nat
  data : Bytes

/-- A response without data. -/
def Reply.plain (op stat addr off : Nat) : Reply := ⟨op, stat, addr, off, 0, 0, []⟩

/-- The bytes of a response: the command block and its data. -/
def Reply.bytes (r : Reply) : Bytes :=
  leBytes 1 (r.op + 8) ++ leBytes 1 r.stat ++ [0, 0] ++ leBytes 4 r.addr ++ leBytes 4 r.off ++ leBytes 2 r.len ++ leBytes 2 r.aux ++
    r.data

/-- R478, R481, R482: the requester is answered: I3C holds the response for a private read; a Torec requester is sent it;
the test access port and firmware see the status alone. BUSY replies of the dictionary are counted (R494). (log 7, DESIGN CHOICE) -/
def State.respond (s : State) (q : Requester) (r : Reply) : State :=
  let s := s.status r.stat
  let s := if r.stat = stBusy ∧ opOdrd ≤ r.op then s.incFld F.MGT_CNT.DBUSY [] 1 else s
  match q with
  | .i3c => { s with i3c := { s.i3c with resp := some r.bytes } }
  | .torec _ src part tag =>
    let b := r.bytes
    s.sendTo (s.hdr 2 ((r.op + 8) % 16) src.toNat part.toNat 0 (units16 b.length) tag.toNat 0) b
  | _ => s

/-- R478, R481: the most data a request or response of a requester carries. -/
def State.dataLimit (s : State) (q : Requester) : Nat :=
  match q with
  | .torec l _ _ _ => min 240 (16 * (s.lnd l.val).maxpl - 16)
  | _ => 240

/-- A request of this requester can reach the die: a Torec request by a landing that carries MGT. (log 13, DEDUCED) -/
def State.reaches (s : State) (q : Requester) : Bool :=
  match q with
  | .torec l _ _ _ => s.torec l.val && bitAt (s.fld F.LND_STAT.CLS [l.val]) 2
  | _ => true

/-! ### The register bridge (R465, R479) -/

/-- Read `n` words from an address in ascending order, up to the first that fails. -/
def State.readWords (s : State) (q : Requester) (addr : Nat) : Nat → Bytes → State × Bytes
  | 0, acc => (s, acc)
  | n + 1, acc =>
    let t := s.regRead q addr
    if t.lastStat = stOk then State.readWords t q (addr + 8) n (acc ++ leBytes 8 t.lastData.toNat) else (t, acc)

/-- Write words in ascending order, up to the first that fails; with the number of bytes written. -/
def State.writeWords (s : State) (q : Requester) (addr : Nat) (data : Bytes) : Nat → Nat → State × Nat
  | 0, k => (s, k)
  | n + 1, k =>
    let t := s.regWrite q addr (leAt data k 8)
    if t.lastStat = stOk then State.writeWords t q (addr + 8) data n (k + 8) else (t, k)

/-- LEN of a register access is a multiple of 8 within the limit (R479). -/
def State.regLenOk (s : State) (q : Requester) (n : Nat) : Bool :=
  decide (n % 8 = 0) && decide (8 ≤ n) && decide (n ≤ s.dataLimit q)

/-- How a register access of another length is refused: one narrower than its words is an alignment error (R14, R480). -/
def lenStat (n : Nat) : Nat := if n % 8 = 0 then stFormat else stAlign

/-- R382: the credits that a request with `n` bytes of data took are given back. -/
def State.mgtTook (s : State) (q : Requester) (n : Nat) : State :=
  match q with
  | .torec l _ _ _ => s.giveBack l.val 2 (16 + 16 * units16 n)
  | _ => s

/-- A request to read registers (R479). -/
def State.rreg (s : State) (q : Requester) (addr len : Nat) : State :=
  if !s.reaches q then s
  else if !s.regLenOk q len then (s.mgtTook q 0).respond q (.plain opRreg (lenStat len) addr 0)
  else
    let r := ((s.mgtTook q 0).status stOk).readWords q addr (len / 8) []
    r.1.respond q ⟨opRreg, r.1.lastStat, addr, 0, r.2.length, 0, r.2⟩

/-- RREG. -/
def execRreg (q : Requester) (addr len : Nat) (s : State) : Res := onMp s (fun s => s.rreg q addr len)

/-- A request to write registers (R479). (log 46, DESIGN CHOICE) -/
def State.wreg (s : State) (q : Requester) (addr : Nat) (data : Bytes) : State :=
  if !s.reaches q then s
  else if !s.regLenOk q data.length then (s.mgtTook q data.length).respond q (.plain opWreg (lenStat data.length) addr 0)
  else
    let r := ((s.mgtTook q data.length).status stOk).writeWords q addr data (data.length / 8) 0
    r.1.respond q ⟨opWreg, r.1.lastStat, addr, 0, if r.1.lastStat = stOk then 0 else r.2, 0, []⟩

/-- WREG. -/
def execWreg (q : Requester) (addr : Nat) (data : Bytes) (s : State) : Res := onMp s (fun s => s.wreg q addr data)

/-- A malformed command block (R478, R479, R480): short, with an unknown opcode, with a field set that a request leaves
zero, or with data that is not what LEN says; the data follows the block, without padding. (log 43, DESIGN CHOICE) -/
def blockBad (b : Bytes) : Bool :=
  let op := leAt b 0 1
  let carries := op == 1 || op == 3
  decide (b.length < 16) || decide (4 < op) || leAt b 1 1 != 0 || decide (4 ≤ leAt b 2 1) || leAt b 3 1 != 0 ||
    leAt b 14 2 != 0 || decide (b.length ≠ 16 + (if carries then leAt b 12 2 else 0)) || decide (256 < b.length)

/-- R479, R480: a malformed block is answered FORMAT. -/
def State.malformed (s : State) (q : Requester) (b : Bytes) : State :=
  if s.reaches q && blockBad b then (s.mgtTook q (b.length - 16)).respond q (.plain (leAt b 0 1) stFormat (leAt b 4 4) (leAt b 8 4)) else s

/-- MGT_FORMAT_ERROR (R479, R480): a request whose block, an unknown opcode among others, is malformed. -/
def execMgtFormatError (q : Requester) (block : Bytes) (s : State) : Res := onMp s (fun s => s.malformed q block)

/-! ### Order of service (R467, R476, R491) -/

/-- What the mailbox does with a dictionary request before firmware sees it: while shedding it answers BUSY, but for reads
of OD 0x4200 (R467); a full mailbox answers BUSY (R476); while no firmware runs the request waits (R491); else it is served. (log 14, DESIGN CHOICE; log 15, DESIGN CHOICE) -/
def State.mailbox (s : State) (i : Instr) (ix : Nat) (rd : Bool) (queued : Nat) (busy : Nat → State → State)
    (serve : State → State) : State :=
  let n := queued + s.mp.mbox.length
  let s := s.setFld F.MGT_MBOX.DQ [] (min 64 queued)
  if s.bit F.MGT_STAT.SHED [] && !(rd && ix == 0x4200) then busy (min 100 (2 + n)) s
  else if 64 ≤ n then
    let x := s.takeFree
    busy (Config.retryAfter x.2).toNat x.1
  else if 2 ≤ s.mpst then s.modMp (fun m => { m with mbox := m.mbox ++ [i] })
  -- what stood before a request has been served when it is (R476)
  else (serve s).setFld F.MGT_MBOX.DQ [] 0

/-- R484: OD 0x6000:04 is readable over I3C whenever the always-on rail runs. -/
def ringLogRead (q : Requester) (ix sub : Nat) : Bool := q == .i3c && ix == 0x6000 && sub == 4

/-- R432: until FIRMWARE is done the boot ROM serves two ranges, over I3C only. (log 44, DESIGN CHOICE) -/
def State.romServes (s : State) (q : Requester) (ix : Nat) : Bool :=
  s.mpst != 0 || (q == .i3c && ((decide (0x1000 ≤ ix) && decide (ix < 0x1300)) || (decide (0x7000 ≤ ix) && decide (ix < 0x8000))))

/-- The entry a request names, where it is served (R432, R471). -/
def State.entryOf (s : State) (q : Requester) (ix sub : Nat) : Option OdEnt :=
  if s.romServes q ix || ringLogRead q ix sub then odEnt ix sub else none

/-- DREQ of OD 0x5000: a request has been served. (log 67, DESIGN CHOICE) -/
def State.countServed (s : State) : State := s.odSet 0x5000 1 8 ((s.odNat 0x5000 1 0 + 1) % 2 ^ 64)

/-! ### Reads -/

/-- The value a read finds: as `odValue`, and what the MP knows of the moment. (log 12, DESIGN CHOICE) -/
def State.readValue (s : State) (ix sub : Nat) (e : OdEnt) : State × Bytes :=
  if ix = 0x1200 ∧ sub = 5 ∧ s.bring.status = 1 then
    let x := s.takeFree
    (x.1, leBytes 4 (Config.elapsedUs x.2).toNat)
  else if ix = 0x7120 ∧ sub = 2 then (s, s.mp.report.getD [])
  else (s, s.odValue ix sub e)

/-- ODRD served (R472, R474, R477, R479, R492). -/
def State.odrd (s : State) (q : Requester) (ix sub off len : Nat) : State :=
  let addr := ix * 256 + sub
  let s := s.countServed
  match s.entryOf q ix sub with
  | none => s.respond q (.plain opOdrd stNoent addr off)
  | some e =>
    if !s.holds q (odRights ix sub).1 (ix % 16) then (s.deny q addr).respond q (.plain opOdrd stDenied addr off)
    else if ix = 0x7120 ∧ sub = 2 ∧ s.mp.nonce.isSome then s.respond q ⟨opOdrd, stBusy, addr, off, 0, 5, []⟩
    else
      let v := s.readValue ix sub e
      let d := (v.2.drop off).take (min len (s.dataLimit q))
      let more := decide (off + d.length < v.2.length)
      v.1.respond q ⟨opOdrd, stOk, addr, off, d.length, if more then 2 ^ 15 else 0, d⟩

/-- A request to read an entry, at the mailbox. -/
def State.odrdReq (s : State) (q : Requester) (index : BitVec 16) (sub : Byte) (off len queued : Nat) : State :=
  if !s.reaches q || q == .tap then s
  else
    let addr := index.toNat * 256 + sub.toNat
    let s := s.mgtTook q 0
    if ringLogRead q index.toNat sub.toNat && decide (2 ≤ s.mpst) then s.odrd q index.toNat sub.toNat off len
    else s.mailbox (.odrd q index sub off len queued) index.toNat true queued
      (fun aux s => s.respond q ⟨opOdrd, stBusy, addr, off, 0, aux, []⟩)
      (fun s => s.odrd q index.toNat sub.toNat off len)

/-- ODRD (R476, R479). -/
def execOdrd (q : Requester) (index : BitVec 16) (sub : Byte) (off len queued : Nat) (s : State) : Res :=
  onMp s (fun s => s.odrdReq q index sub off len queued)

/-- The descriptor of an entry (R473). -/
def State.descriptor (s : State) (ix sub : Nat) (e : OdEnt) : Bytes :=
  let r := odRights ix sub
  leBytes 1 e.ty ++ leBytes 1 e.acc ++ leBytes 1 r.1 ++ leBytes 1 r.2 ++ leBytes 4 e.maxlen ++
    leBytes 4 (s.readValue ix sub e).2.length ++ leBytes 1 (b2n (decide (0x2001 ≤ ix) && decide (ix < 0x3000))) ++
    leBytes 1 (b2n (e.acc == accRws && s.sealed)) ++ [0, 0]

/-- ODDESC served. -/
def State.oddesc (s : State) (q : Requester) (ix sub : Nat) : State :=
  let addr := ix * 256 + sub
  let s := s.countServed
  match s.entryOf q ix sub with
  | none => s.respond q (.plain opOddesc stNoent addr 0)
  | some e =>
    if !s.holds q (odRights ix sub).1 (ix % 16) then (s.deny q addr).respond q (.plain opOddesc stDenied addr 0)
    else s.respond q ⟨opOddesc, stOk, addr, 0, 16, 0, s.descriptor ix sub e⟩

/-- A request for the descriptor of an entry, at the mailbox. -/
def State.oddescReq (s : State) (q : Requester) (index : BitVec 16) (sub : Byte) (queued : Nat) : State :=
  if !s.reaches q || q == .tap then s
  else
    (s.mgtTook q 0).mailbox (.oddesc q index sub queued) index.toNat false queued
      (fun aux s => s.respond q ⟨opOddesc, stBusy, index.toNat * 256 + sub.toNat, 0, 0, aux, []⟩)
      (fun s => s.oddesc q index.toNat sub.toNat)

/-- ODDESC (R473). -/
def execOddesc (q : Requester) (index : BitVec 16) (sub : Byte) (queued : Nat) (s : State) : Res :=
  onMp s (fun s => s.oddescReq q index sub queued)

/-! ### What a write does (R483) -/

/-- A value that the dictionary only holds. -/
def State.odKeep (s : State) (ix sub : Nat) (b : Bytes) : State :=
  { s with od := SMap.put s.od (ix * 256 + sub) b }.status stOk

/-- Kept where the value is within its range, else INVALID. -/
def State.odKeepIf (s : State) (ok : Bool) (ix sub : Nat) (b : Bytes) : State :=
  if ok then s.odKeep ix sub b else s.status stInvalid

/-- The value lies in the range that a configuration entry or the field it sets states. -/
def cfgRange (ix sub v : Nat) : Bool :=
  match ix, sub with
  | 0x2010, 1 => decide (10000 ≤ v) && decide (v ≤ 1000000)
  | 0x2020, 2 => decide (v ≤ 900)
  | 0x2020, 5 => decide (85 ≤ v) && decide (v ≤ 110)
  | 0x2020, 6 => decide (1 ≤ v) && decide (v ≤ 10)
  | 0x2020, 7 => decide (5 ≤ v) && decide (v ≤ 100)
  | 0x2020, 8 => decide (100 ≤ v) && decide (v ≤ 700)
  | 0x2020, 10 => decide (v ≤ 1)
  | 0x2030, 2 => decide (v ≤ 4095)
  | 0x2030, 3 => decide (v < 2 ^ 20)
  | 0x2040, 2 => decide (v ≤ 15)
  | _, _ => true

/-- R483, R457: a configuration entry: at once before tides run; else in the RECON of the next tide, and in that of the one
after it where the die has sealed the coming tide and sent its digest. -/
def State.cfgWrite (s : State) (ix sub : Nat) (b : Bytes) : State :=
  let k := ix * 256 + sub
  if !cfgRange ix sub (leNat b) then s.status stInvalid
  else if !s.tide.begun then (s.applyCfg ix sub b).status stOk
  else if s.tst = 2 ∨ (s.tst = 3 ∧ !s.tide.recon) then { s with cfgLate := SMap.put s.cfgLate k b }.status stOk
  else { s with cfgNext := SMap.put s.cfgNext k b }.status stOk

/-- OD 0x3020 + l: the entries of a landing. -/
def State.landEntry (s : State) (l sub v : Nat) : State :=
  let ctl := fun (n x : Nat) (lo : Nat) => s.landCtlWrite l (putBits (s.word .LND_CTL [l]) lo n x)
  match sub with
  | 1 => if 1 < v then s.status stInvalid else ctl 1 v 63
  | 2 => if 3 < v then s.status stInvalid
    else s.landCtlWrite l (putBits (putBits (s.word .LND_CTL [l]) 62 1 (v % 2)) 61 1 (v / 2))
  | 3 => if 1 < v then s.status stInvalid else ctl 1 v 60
  | 4 => if 2 < v then s.status stInvalid else ctl 2 v 58
  | _ => if 16 ≤ v ∨ v < 4 then s.status stInvalid else s.rtcmd .fw l (v / 4) (v % 4)

/-- OD 0x3030: the route toward a position. -/
def State.routeEntry (s : State) (q v : Nat) : State :=
  if v = 0xFF ∨ v < 8 then
    (s.setWord .LND_ROUTE [q / 8] (putBits (s.word .LND_ROUTE [q / 8]) (8 * (q % 8)) 8 (if v = 0xFF then 0 else 128 + v))).status stOk
  else s.status stInvalid

/-- OD 0x3100 (R350, R351): the partition command and its operands. (log 54, DESIGN CHOICE) -/
def State.partEntry (s : State) (sub : Nat) (b : Bytes) : State :=
  if s.pcmd.isSome then s.status stBusy
  else if sub ≠ 1 then s.odKeep 0x3100 sub b
  else
    let op := leNat b
    if op = 0 then s.status stOk
    else if 2 < op then s.status stInvalid
    else
      let s := (s.odKeep 0x3100 1 b).odSet 0x3100 16 1 0xFF
      { s with pcmd := some ⟨op, s.odNat 0x3100 2 0, [], 0, false⟩ }.status stOk

/-- A field of FE_EVBASE, as firmware writes it. -/
def State.evEntry (s : State) (f : Fld) (ok : Bool) (v : Nat) : State :=
  if s.bit F.FE_CTL.EN [] then s.status stBusy
  else if !ok then s.status stInvalid
  else
    let w := putBits (s.word .FE_EVBASE []) f.lo f.w v
    s.writeFields .FE_EVBASE [] w

/-- OD 0x3000-0x3FFF. -/
def State.writeOper (s : State) (ix sub : Nat) (b : Bytes) : State :=
  let v := leNat b
  let n := s.members_.length
  if 0x3020 ≤ ix ∧ ix ≤ 0x3027 then s.landEntry (ix - 0x3020) sub v
  else if 0x3110 ≤ ix ∧ ix ≤ 0x311F then s.odKeepIf (decide (v ≤ 100000)) ix sub b
  else
    match ix, sub with
    | 0x3010, 1 => s.odKeepIf (decide (v ≤ 1)) ix sub b
    | 0x3010, _ => s.odKeepIf ([2000000, 1600000, 1200000, 1000000].contains v) ix sub b
    | 0x3030, _ => s.routeEntry (sub - 1) v
    | 0x3100, _ => s.partEntry sub b
    | 0x3120, 1 => s.odKeepIf (v == 0 || decide (n * s.odNat 0x3120 3 200 ≤ v)) ix sub b
    | 0x3120, 2 => s.odKeepIf (decide (1 ≤ v) && decide (v ≤ 100)) ix sub b
    | 0x3120, _ => s.odKeepIf (decide (100 ≤ v) && decide (v ≤ 700)) ix sub b
    | _, _ => s.odKeepIf (decide (100 ≤ v) && decide (v ≤ 1000000)) ix sub b

/-- OD 0x6000 (R485, R486). -/
def State.writeLog (s : State) (q : Requester) (sub : Nat) (b : Bytes) : State :=
  let v := leNat b
  let log := fun (ok : Bool) =>
    if ok then (s.modMp (fun m => { m with plNew := true, plN := 0, plOver := 0, plOut := [] })).odKeep 0x6000 sub b else s.status stInvalid
  match sub with
  | 1 => log (decide (v % 4096 = 0))
  | 2 => log (decide (8 ≤ v) && decide (v ≤ 24))
  | 5 => s.odKeepIf (decide (v % 4096 = 0)) 0x6000 sub b
  | 6 => s.odKeepIf (v == 0 || decide (1024 ≤ v)) 0x6000 sub b
  | 8 =>
    let x := s.takeFree
    x.1.dumpreqWrite q v (Config.upTime x.2).toNat
  | 9 => s.evEntry F.FE_EVBASE.BASE (decide (v % 4096 = 0)) (v / 4096)
  | _ => s.evEntry F.FE_EVBASE.LSIZE (decide (8 ≤ v) && decide (v ≤ 20)) v

/-- A whole value is written to an entry by a requester with the right; its status is left in the state. -/
def State.odWrite (s : State) (q : Requester) (ix sub : Nat) (b : Bytes) : State :=
  let v := leNat b
  if 0x2000 ≤ ix ∧ ix < 0x3000 then s.cfgWrite ix sub b
  else if 0x3000 ≤ ix ∧ ix < 0x4000 then s.writeOper ix sub b
  else
    match ix, sub with
    | 0x1102, _ => (s.fieldMapWrite b).status stOk
    | 0x1200, _ => s.startStep v
    | 0x1201, _ => s.claimWrite q v
    | 0x6000, _ => s.writeLog q sub b
    | 0x7001, _ => s.imageWrite q (sub - 1) b
    | 0x7002, 2 => s.odKeepIf (decide (v ≤ 1)) ix sub b
    | 0x7002, 3 => s.activateFw q v
    | 0x7002, _ => s.commitSvn q v
    | 0x7120, _ => s.nonceWrite b
    | _, _ => s.odKeep ix sub b

/-! ### Segments (R477) -/

/-- Two requests come from one requester: the tag of a Torec request, and the landing it came by, aside. -/
def sameRequester (a b : Requester) : Bool :=
  match a, b with
  | .torec _ s p _, .torec _ s' p' _ => s == s' && p == p'
  | a, b => a == b

/-- The staging that is open for an entry. -/
def State.stagingOf (s : State) (ix sub : Nat) : Option Staging := s.mp.staging.find? (fun x => x.index == ix && x.sub == sub)

/-- Close the staging of an entry. -/
def State.closeStaging (s : State) (ix sub : Nat) : State :=
  s.modMp (fun m => { m with staging := m.staging.filter (fun x => !(x.index == ix && x.sub == sub)) })

/-- Leave it open with the bytes received so far. -/
def State.openStaging (s : State) (q : Requester) (ix sub : Nat) (b : Bytes) : State :=
  (s.closeStaging ix sub).modMp (fun m => { m with staging := m.staging ++ [⟨q, ix, sub, b⟩] })

/-- R477: a segment of a STR or BLOB value. -/
def State.segment (s : State) (q : Requester) (ix sub : Nat) (e : OdEnt) (first last : Bool) (off : Nat) (data : Bytes) : State :=
  let old := s.stagingOf ix sub
  if old.any (fun x => !sameRequester x.q q) then s.status stBusy
  else
    let so := if first then [] else (old.map (·.data)).getD []
    if (!first && old.isNone) || off ≠ so.length then (s.closeStaging ix sub).status stInvalid
    else
      let b := so ++ data
      if !last then (s.openStaging q ix sub b).status stOk
      else if e.maxlen < b.length then (s.closeStaging ix sub).status stType
      else (s.closeStaging ix sub).odWrite q ix sub b

/-- R472: a numeric entry takes exactly the length of its type. (log 42, DESIGN CHOICE) -/
def State.numeric (s : State) (q : Requester) (ix sub n off : Nat) (data : Bytes) : State :=
  if off ≠ 0 ∨ data.length ≠ n then s.status stType else s.odWrite q ix sub data

/-- ODWR judged and carried out (R18, R19, R471-R477, R493). (log 14, DESIGN CHOICE) -/
def State.odwrDo (s : State) (q : Requester) (ix sub : Nat) (first last : Bool) (off : Nat) (data : Bytes) : State :=
  match s.entryOf q ix sub with
  | none => s.status stNoent
  | some e =>
    if s.dataLimit q < data.length then s.status stFormat
    else if !s.holds q (odRights ix sub).2 (ix % 16) then s.deny q (ix * 256 + sub)
    else if e.acc = accConst ∨ e.acc = accRo then s.status stReadonly
    else if e.acc = accRws ∧ s.sealed then s.status stSealed
    else
      match tyLen e.ty with
      | some n => s.numeric q ix sub n off data
      | none => s.segment q ix sub e first last off data

/-- A write of an entry is answered with its status; a BUSY reply names no time, so its AUX is free. (log 15, DESIGN CHOICE) -/
def State.answerWrite (s : State) (q : Requester) (ix sub off : Nat) : State :=
  let x := s.takeFree
  if s.lastStat = stBusy then x.1.respond q ⟨opOdwr, stBusy, ix * 256 + sub, off, 0, (Config.retryAfter x.2).toNat, []⟩
  else s.respond q (.plain opOdwr s.lastStat (ix * 256 + sub) off)

/-- ODWR served. -/
def State.odwr (s : State) (q : Requester) (ix sub : Nat) (first last : Bool) (off : Nat) (data : Bytes) : State :=
  (s.countServed.odwrDo q ix sub first last off data).answerWrite q ix sub off

/-- A request to write an entry, at the mailbox. -/
def State.odwrReq (s : State) (q : Requester) (index : BitVec 16) (sub : Byte) (first last : Bool) (off : Nat) (data : Bytes)
    (queued : Nat) : State :=
  if !s.reaches q || q == .tap then s
  else
    let addr := index.toNat * 256 + sub.toNat
    (s.mgtTook q data.length).mailbox (.odwr q index sub first last off data queued) index.toNat false queued
      (fun aux s => s.respond q ⟨opOdwr, stBusy, addr, off, 0, aux, []⟩)
      (fun s => s.odwr q index.toNat sub.toNat first last off data)

/-- ODWR (R476, R479). -/
def execOdwr (q : Requester) (index : BitVec 16) (sub : Byte) (first last : Bool) (off : Nat) (data : Bytes) (queued : Nat)
    (s : State) : Res := onMp s (fun s => s.odwrReq q index sub first last off data queued)

/-- STAGING_TIMEOUT (R477): no segment for 1 s. -/
def execStagingTimeout (index : BitVec 16) (sub : Byte) (s : State) : Res := onMp s fun s =>
  match s.stagingOf index.toNat sub.toNat with
  | some x =>
    (s.closeStaging x.index x.sub).post 0x0909 0x01 partNone locNone (x.index * 256 + x.sub) (transportOf x.q)
  | none => s

/-! ### Writes with rows of their own -/

/-- A write of an entry as a row of its own, served: it is judged, and answered. -/
def State.ownServe (s : State) (q : Requester) (ix sub : Nat) (f : State → State) : State :=
  let s := s.countServed
  (if s.romServes q ix then f s else s.status stNoent).answerWrite q ix sub 0

/-- Such a write, the last segment of its value, at the mailbox: it passes the mailbox and the boot ROM as any dictionary
request does. -/
def State.ownWrite (s : State) (i : Instr) (q : Requester) (ix sub n : Nat) (f : State → State) : State :=
  if !s.reaches q || q == .tap then s
  else
    (s.mgtTook q (min n (s.dataLimit q))).mailbox i ix false 0
      (fun aux s => s.respond q ⟨opOdwr, stBusy, ix * 256 + sub, 0, 0, aux, []⟩)
      (fun s => s.ownServe q ix sub f)

/-- IMAGE_WRITE (R490). -/
def execImageWrite (q : Requester) (slot : Fin 2) (image : Bytes) (s : State) : Res := onMp s fun s =>
  s.ownWrite (.imageWrite q slot image) q 0x7001 (slot.val + 1) image.length (fun s => s.imageWrite q slot.val image)

/-- ACTIVATE (R490). -/
def execActivate (q : Requester) (slot : Byte) (s : State) : Res := onMp s fun s =>
  s.ownWrite (.activate q slot) q 0x7002 3 1 (fun s => s.activateFw q slot.toNat)

/-- COMMIT (R489, R490). -/
def execCommit (q : Requester) (svn : BitVec 32) (s : State) : Res := onMp s fun s =>
  s.ownWrite (.commit q svn) q 0x7002 4 4 (fun s => s.commitSvn q svn.toNat)

/-- NONCE (R492): any requester may write it (R474). -/
def execNonce (q : Requester) (data : Bytes) (s : State) : Res := onMp s fun s =>
  s.ownWrite (.nonce q data) q 0x7120 1 data.length (fun s => s.nonceWrite data)

/-- DUMPREQ (R486). -/
def execDumpreq (q : Requester) (v : Byte) (timeUs : Nat) (s : State) : Res := onMp s fun s =>
  s.ownWrite (.dumpreq q v timeUs) q 0x6000 8 1 (fun s => s.dumpreqWrite q v.toNat timeUs)

/-! ### Requests that waited (R491) -/

/-- Serve one request that waited in the mailbox. -/
def State.serve (s : State) (i : Instr) : State :=
  match i with
  | .odrd q ix sub off len _ => s.odrd q ix.toNat sub.toNat off len
  | .odwr q ix sub first last off data _ => s.odwr q ix.toNat sub.toNat first last off data
  | .oddesc q ix sub _ => s.oddesc q ix.toNat sub.toNat
  | .imageWrite q slot image => s.ownServe q 0x7001 (slot.val + 1) (fun s => s.imageWrite q slot.val image)
  | .activate q slot => s.ownServe q 0x7002 3 (fun s => s.activateFw q slot.toNat)
  | .commit q svn => s.ownServe q 0x7002 4 (fun s => s.commitSvn q svn.toNat)
  | .nonce q nonce => s.ownServe q 0x7120 1 (fun s => s.nonceWrite nonce)
  | .dumpreq q v t => s.ownServe q 0x6000 8 (fun s => s.dumpreqWrite q v.toNat t)
  | _ => s

/-- The request came over the I3C port by a private write. -/
def overI3c (i : Instr) : Bool :=
  match i with
  | .odrd q .. => q == .i3c
  | .odwr q .. => q == .i3c
  | .oddesc q .. => q == .i3c
  | .imageWrite q .. => q == .i3c
  | .activate q .. => q == .i3c
  | .commit q .. => q == .i3c
  | .nonce q .. => q == .i3c
  | .dumpreq q .. => q == .i3c
  | _ => false

/-- R482: a response whose request was followed by a newer private write is discarded. -/
def State.serveWaiting (s : State) (i : Instr) : State :=
  if overI3c i && decide (0 < s.i3c.drop) then
    let t := s.serve i
    { t with i3c := { t.i3c with resp := s.i3c.resp, drop := s.i3c.drop - 1 } }
  else s.serve i

/-- Firmware runs again: the requests of the mailbox are served in the order of their arrival. -/
def State.serveMailbox (s : State) : State :=
  let l := s.mp.mbox
  l.foldl (fun a i => a.serveWaiting i) (s.modMp (fun m => { m with mbox := [] }))

end Sys2Proof.Machine
end

