-- ==== Sys2Proof/Machine/Update.lean ====
section
/-! DEFINITION. What the firmware does over time: the swap of images (R490, R491), the watchdog (R469, R486), and the load
windows (R467, R468). -/

namespace Sys2Proof.Machine

/-- R490: nothing holds a swap back: no recovery is pending and no landing command is busy. -/
def State.swapFree (s : State) : Bool :=
  (List.range 16).all (fun p => s.fld F.FLT_PREC.STATE [p] == 0) && lands8.all (fun l => !s.bit F.LND_RTCMD.BUSY [l])

/-- R490 steps 3 and 4: in RECON of a tide the new slot starts; with its first kick of the watchdog it runs. -/
def State.swapStep (s : State) (kicked : Bool) : State :=
  match s.mp.swap with
  | none => s
  | some k =>
    if !kicked then
      if s.mpst = 1 ∧ s.tst = 3 ∧ s.swapFree then
        -- the handover state, which the spec does not state, goes to the data region
        ((s.mpMemory.setFld F.MGT_STAT.MPST [] 2).setUstat 3).modMp (fun m => { m with staging := [] })
      else s
    else if s.mpst = 2 then
      let old := s.fld F.MGT_STAT.FWVER []
      let s := ((s.modMp (fun m => { m with swap := none })).runImage k).setUstat 0
      (s.post 0x0904 0x01 partNone locNone (s.fld F.MGT_STAT.FWVER []) old).serveMailbox
    else s

/-- FIRMWARE_SWAP (R490, R491). -/
def execFirmwareSwap (kicked : Bool) (s : State) : Res := onMp s (fun s => s.swapStep kicked)

/-- FIRMWARE_REVERT (R490): no kick within 50 ms: the old slot runs again. -/
def execFirmwareRevert (s : State) : Res := onMp s fun s =>
  match s.mp.swap with
  | none => s
  | some k =>
    if s.mpst = 2 then
      let s := ((s.modMp (fun m => { m with swap := none })).setFld F.MGT_STAT.MPST [] 1).setUstat 4
      (s.post 0x0905 0x01 partNone locNone (imgVer (s.slotImg k)) s.slot).serveMailbox
    else s

/-- WATCHDOG_EXPIRY (R469, R486): the MP restarts from the active slot, and keeps its data region; a third expiry within 10 s is
fatal. (log 56, DESIGN CHOICE) -/
def execWatchdogExpiry (third : Bool) (timeUs : Nat) (s : State) : Res := onMp s fun s =>
  if s.mpst ≠ 1 then s
  else
    let s := s.incFld F.MGT_CNT.MPRST [] 1
    let s := s.post 0x0901 0x01 partNone locNone (s.fld F.MGT_CNT.MPRST []) s.slot
    if third then s.fatal 3 timeUs else s.mpMemory.setFld F.MGT_STAT.MPST [] 3

/-- A restart has ended by the first load window that ends after it: firmware runs again and serves what waited. (log 56, DESIGN CHOICE) -/
def State.restarted (s : State) : State := if s.mpst = 3 then (s.setFld F.MGT_STAT.MPST [] 1).serveMailbox else s

/-- LOAD_WINDOW_END (R467, R468). -/
def execLoadWindowEnd (load : Nat) (duty : List Nat) (s : State) : Res := onMp s fun s =>
  let s := s.restarted
  if s.mpst ≠ 1 then s
  else
    let load := min load 100
    let s := (s.setFld F.MGT_STAT.LOAD [] load).modMp (fun m => { m with loadMax := max m.loadMax load })
    let s : State := { s with od := SMap.put s.od (0x4200 * 256 + 4) ((List.range 5).flatMap (fun i => leBytes 1 (listGet 0 duty i))) }
    let shed := s.bit F.MGT_STAT.SHED []
    if 85 < load then
      let s := s.modMp (fun m => { m with cool := 0 })
      if shed then s
      else (s.setFld F.MGT_STAT.SHED [] 1).post 0x0902 0x01 partNone locNone load
        s.dictQueued
    else if !shed then s
    else if s.mp.cool + 1 < 10 then s.modMp (fun m => { m with cool := m.cool + 1 })
    else
      let s := (s.modMp (fun m => { m with cool := 0 })).setFld F.MGT_STAT.SHED [] 0
      s.post 0x0903 0x01 partNone locNone load 0

end Sys2Proof.Machine
end

