-- ==== Sys2Proof/Machine/I3c.lean ====
section
/-! DEFINITION. The I3C target (R482): its common command codes, and the private transfers that carry requests. -/

namespace Sys2Proof.Machine

/-- Change the I3C target. -/
def State.modI3c (s : State) (f : I3c → I3c) : State := { s with i3c := f s.i3c }

/-- The target acknowledges a transfer and returns bytes, or does not. -/
def State.i3cAnswer (s : State) (ack : Bool) (data : Bytes) : State := s.emit (.i3c ack data)

/-- A transfer to the dynamic address: with no address assigned the target does not answer. -/
def State.i3cAt (s : State) (f : State → State) : State := if s.i3c.addr.isSome then f s else s.i3cAnswer false []

/-- The provisioned ID (R482). -/
def State.pid (s : State) : Nat :=
  bits s.fuses.mfid.toNat 0 15 * 2 ^ 33 + s.fuses.grade.toNat * 2 ^ 16 + s.pads.straps.pos.toNat * 2 ^ 6

/-- ENTDAA: a target without an address sends its provisioned ID, BCR and DCR, and takes the address. -/
def execEntdaa (addr : BitVec 7) (s : State) : Res := onMp s fun s =>
  if s.i3c.addr.isSome then s.i3cAnswer false []
  else (s.modI3c (fun i => { i with addr := some addr.toNat })).i3cAnswer true (beBytes 6 s.pid ++ [0, 0])

/-- RSTDAA. -/
def execRstdaa (s : State) : Res := onMp s (fun s => (s.modI3c (fun i => { i with addr := none })).i3cAnswer true [])

/-- SETMWL. -/
def execSetmwl (len : BitVec 16) (s : State) : Res := onMp s (fun s =>
  s.i3cAt (fun s => (s.modI3c (fun i => { i with mwl := len.toNat })).i3cAnswer true []))
/-- GETMWL. -/
def execGetmwl (s : State) : Res := onMp s (fun s => s.i3cAt (fun s => s.i3cAnswer true (beBytes 2 s.i3c.mwl)))
/-- SETMRL. -/
def execSetmrl (len : BitVec 16) (s : State) : Res := onMp s (fun s =>
  s.i3cAt (fun s => (s.modI3c (fun i => { i with mrl := len.toNat })).i3cAnswer true []))
/-- GETMRL. -/
def execGetmrl (s : State) : Res := onMp s (fun s => s.i3cAt (fun s => s.i3cAnswer true (beBytes 2 s.i3c.mrl)))
/-- GETPID. -/
def execGetpid (s : State) : Res := onMp s (fun s => s.i3cAt (fun s => s.i3cAnswer true (beBytes 6 s.pid)))
/-- GETBCR. -/
def execGetbcr (s : State) : Res := onMp s (fun s => s.i3cAt (fun s => s.i3cAnswer true [0]))
/-- GETDCR. -/
def execGetdcr (s : State) : Res := onMp s (fun s => s.i3cAt (fun s => s.i3cAnswer true [0]))

/-- GETSTATUS: the value is not stated: a free one. (log 10, DESIGN CHOICE) -/
def execGetstatus (s : State) : Res := onMp s (fun s => s.i3cAt (fun s =>
  let x := s.takeFree
  x.1.i3cAnswer true (beBytes 2 (Config.i3cStatus x.2).toNat)))

/-- ENEC: accepted, with no effect. -/
def execEnec (_ev : Byte) (s : State) : Res := onMp s (fun s => s.i3cAt (fun s => s.i3cAnswer true []))
/-- DISEC: accepted, with no effect. -/
def execDisec (_ev : Byte) (s : State) : Res := onMp s (fun s => s.i3cAt (fun s => s.i3cAnswer true []))
/-- RSTACT: accepted with 0x00 or 0x01 only. -/
def execRstact (defining : Byte) (s : State) : Res := onMp s (fun s =>
  s.i3cAt (fun s => s.i3cAnswer (decide (defining.toNat ≤ 1)) []))
/-- I3C_OTHER_CCC: every other code is not acknowledged. -/
def execI3cOtherCcc (_code : Byte) (s : State) : Res := onMp s (fun s => s.i3cAnswer false [])

/-- R478: the request that a private write carries. -/
def State.i3cRequest (s : State) (b : Bytes) (queued : Nat) : State :=
  let op := leAt b 0 1
  let flags := leAt b 2 1
  let addr := leAt b 4 4
  let off := leAt b 8 4
  let len := leAt b 12 2
  let data := b.drop 16
  if blockBad b then s.malformed .i3c b
  else if op = 0 then s.rreg .i3c addr len
  else if op = 1 then s.wreg .i3c addr data
  else if 2 ^ 24 ≤ addr then s.respond .i3c (.plain op stNoent addr off)
  else
    let ix := BitVec.ofNat 16 (addr / 256)
    let sub := BitVec.ofNat 8 (addr % 256)
    if op = 2 then s.odrdReq .i3c ix sub off len queued
    else if op = 3 then s.odwrReq .i3c ix sub (bitAt flags 0) (bitAt flags 1) off data queued
    else s.oddescReq .i3c ix sub queued

/-- I3C_PRIVATE_WRITE (R482): a new request discards the unread response, and those of requests that still wait; a write
with a parity error is discarded. (log 44, DESIGN CHOICE) -/
def execI3cPrivateWrite (data : Bytes) (parityError : Bool) (queued : Nat) (s : State) : Res := onMp s (fun s =>
  s.i3cAt (fun s =>
    if parityError then s
    else
      let s := s.i3cAnswer true []
      let s := s.modI3c (fun i => { i with resp := none, drop := (s.mp.mbox.filter overI3c).length })
      s.i3cRequest data queued))

/-- I3C_PRIVATE_READ (R482): the response to the last request, up to MRL; not acknowledged until it is ready. (log 44, DESIGN CHOICE) -/
def execI3cPrivateRead (s : State) : Res := onMp s (fun s =>
  s.i3cAt (fun s =>
    match s.i3c.resp with
    | some b => s.i3cAnswer true (b.take s.i3c.mrl)
    | none => s.i3cAnswer false []))

end Sys2Proof.Machine
end

