-- ==== Sys2Proof/Machine/Tap.lean ====
section
/-! DEFINITION. The test access port (R515-R518, R523). Each row is one load of the instruction and one scan of its data
register: what was captured shifts out, the operand shifts in, and the update acts. -/

namespace Sys2Proof.Machine

/-- R505: the TAP is usable whenever PWRGD is high. -/
def onTap (s : State) (f : State → State) : Res := .next (if s.pads.vin && s.pads.pwrgd then f s else s)

/-- Change the TAP. -/
def State.modTap (s : State) (f : Tap → Tap) : State := { s with tap := f s.tap }

/-- An instruction is loaded: its code, and whether its outputs are driven from the boundary register (1), in high impedance
(2), or free of the TAP (0). -/
def State.tapLoad (s : State) (ir mode : Nat) : State := s.modTap (fun t => { t with ir := ir, mode := mode })

/-- A scan of `n` bits through the bypass register, which captures 0. -/
def State.bypassScan (s : State) (n tdi : Nat) : State :=
  (s.emit (.tdo n (tdi * 2 % 2 ^ n))).modTap (fun t => { t with byp := bitAt tdi (n - 1) })

/-- TAPEN of DBG_CTL: while it is 0 the private instructions act as BYPASS. -/
def State.tapen (s : State) : Bool := s.bit F.DBG_CTL.TAPEN []

/-- TRST_N_ASSERT (R515): the TAP is reset, and IDCODE selected. -/
def execTrstNAssert (s : State) : Res := .next (s.modTap (fun _ => Tap.empty))

/-- BYPASS. -/
def execBypass (tdi : Bool) (s : State) : Res := onTap s (fun s => (s.tapLoad 0xFF 0).bypassScan 1 (b2n tdi))

/-- The identification code (R515). -/
def State.idcode (s : State) : Nat := 2 ^ 28 + s.fuses.grade.toNat * 2 ^ 12 + s.fuses.tapId.toNat * 2 + 1

/-- IDCODE. -/
def execIdcode (s : State) : Res := onTap s (fun s => (s.tapLoad 0x01 0).emit (.tdo 32 s.idcode))

/-- A scan of the boundary register: the pins are captured and shift out, and what shifts in is kept. -/
def State.boundaryScan (s : State) (pins tdi : BitVec 12) : State :=
  (s.emit (.tdo 12 pins.toNat)).modTap (fun t => { t with bound := tdi.toNat })

/-- SAMPLE/PRELOAD. -/
def execSamplePreload (pins tdi : BitVec 12) (s : State) : Res := onTap s (fun s => (s.tapLoad 0x02 0).boundaryScan pins tdi)
/-- EXTEST: the pins are driven from the boundary register. -/
def execExtest (pins tdi : BitVec 12) (s : State) : Res := onTap s (fun s => (s.tapLoad 0x03 1).boundaryScan pins tdi)
/-- CLAMP: bypass, with the outputs held from the boundary register. -/
def execClamp (tdi : Bool) (s : State) : Res := onTap s (fun s => (s.tapLoad 0x04 1).bypassScan 1 (b2n tdi))
/-- HIGHZ: bypass, with every covered output in high impedance. -/
def execHighz (tdi : Bool) (s : State) : Res := onTap s (fun s => (s.tapLoad 0x05 2).bypassScan 1 (b2n tdi))

/-- SATEST (R523): stand-alone test mode, while DONEMASK is 0. (log 9, DESIGN CHOICE) -/
def execSatest (tdi : Bool) (s : State) : Res := onTap s fun s =>
  let s := s.tapLoad 0x20 0
  if !s.tapen then s.bypassScan 1 (b2n tdi)
  else
    let x := s.takeFree
    let s := x.1.emit (.tdo 1 (Config.satestBit x.2).toNat)
    if s.bring.doneMask = 0 then s.setFld F.DBG_CTL.SATEST [] 1 else s

/-- The line that SCANRD names, and its status (R518): the data are those after ECC correction. -/
def State.scanLine (s : State) (store c line : Nat) : Nat × Nat :=
  if 4 < store ∨ !s.enabled c ∨ storeSize store ≤ 32 * line then (stUnmapped, 0)
  else if s.inPart c then (stDenied, 0)
  else (stOk, leNat (((s.clu c).store store).bytes (32 * line) 32))

/-- What a SCANRD or DBGREG access leaves for the next capture while the die is in reset: it is not complete. -/
def busyCapture (v lo : Nat) : Nat := putBits v lo 4 stBusy

/-- SCANRD (R518): the outcome of the last access shifts out; the one that shifts in is carried out. (log 45, DESIGN CHOICE) -/
def execScanrd (tdi : BitVec 288) (s : State) : Res := onTap s fun s =>
  let s := s.tapLoad 0x21 0
  let v := tdi.toNat
  if !s.tapen then s.bypassScan 288 v
  else
    let s := s.emit (.tdo 288 s.tap.scan)
    let req := bits v 261 27 * 2 ^ 261
    if s.inReset then s.modTap (fun t => { t with scan := busyCapture req 257 })
    else
      let r := s.scanLine (bits v 285 3) (bits v 274 11) (bits v 261 13)
      s.modTap (fun t => { t with scan := req + r.1 * 2 ^ 257 + r.2 })

/-- DBGREG (R517): the outcome of the last access shifts out; the access that shifts in starts, with every right but UPDATE. (log 45, DESIGN CHOICE) -/
def execDbgreg (tdi : BitVec 128) (s : State) : Res := onTap s fun s =>
  let s := s.tapLoad 0x22 0
  let v := tdi.toNat
  if !s.tapen then s.bypassScan 128 v
  else
    let s := s.emit (.tdo 128 s.tap.dbg)
    let wr := bitAt v 63
    let addr := bits v 0 26
    let back := fun (data : Nat) (st : Nat) => data * 2 ^ 64 + b2n wr * 2 ^ 63 + st * 2 ^ 59 + addr
    if s.inReset then s.modTap (fun t => { t with dbg := back (bits v 64 64) stBusy })
    else if wr then
      let s := s.regWrite .tap addr (bits v 64 64)
      s.modTap (fun t => { t with dbg := back (bits v 64 64) s.lastStat })
    else
      let s := s.regRead .tap addr
      s.modTap (fun t => { t with dbg := back s.lastData.toNat s.lastStat })

end Sys2Proof.Machine
end

