-- ==== Sys2Proof/Machine/Dispatch.lean ====
section
/-! DEFINITION. The one table of meanings: each command's arm calls its meaning. -/

namespace Sys2Proof.Machine

/-- The effect of a command on everything but the queue. -/
def exec (i : Instr) (s : State) : Host.Outcome State Fault Refusal :=
  match i with
  | .vinPowerOn => Sys2Proof.Machine.execVinPowerOn s
  | .pwrgdRise => Sys2Proof.Machine.execPwrgdRise s
  | .pwrgdFall => Sys2Proof.Machine.execPwrgdFall s
  | .vinUndervoltage => Sys2Proof.Machine.execVinUndervoltage s
  | .rstNFall => Sys2Proof.Machine.execRstNFall s
  | .rstNRise pos hot => Sys2Proof.Machine.execRstNRise pos hot s
  | .trstNAssert => Sys2Proof.Machine.execTrstNAssert s
  | .bypass tdi => Sys2Proof.Machine.execBypass tdi s
  | .idcode => Sys2Proof.Machine.execIdcode s
  | .samplePreload pins tdi => Sys2Proof.Machine.execSamplePreload pins tdi s
  | .extest pins tdi => Sys2Proof.Machine.execExtest pins tdi s
  | .clamp tdi => Sys2Proof.Machine.execClamp tdi s
  | .highz tdi => Sys2Proof.Machine.execHighz tdi s
  | .satest tdi => Sys2Proof.Machine.execSatest tdi s
  | .scanrd tdi => Sys2Proof.Machine.execScanrd tdi s
  | .dbgreg tdi => Sys2Proof.Machine.execDbgreg tdi s
  | .entdaa addr => Sys2Proof.Machine.execEntdaa addr s
  | .rstdaa => Sys2Proof.Machine.execRstdaa s
  | .setmwl len => Sys2Proof.Machine.execSetmwl len s
  | .getmwl => Sys2Proof.Machine.execGetmwl s
  | .setmrl len => Sys2Proof.Machine.execSetmrl len s
  | .getmrl => Sys2Proof.Machine.execGetmrl s
  | .getpid => Sys2Proof.Machine.execGetpid s
  | .getbcr => Sys2Proof.Machine.execGetbcr s
  | .getdcr => Sys2Proof.Machine.execGetdcr s
  | .getstatus => Sys2Proof.Machine.execGetstatus s
  | .enec ev => Sys2Proof.Machine.execEnec ev s
  | .disec ev => Sys2Proof.Machine.execDisec ev s
  | .rstact defining => Sys2Proof.Machine.execRstact defining s
  | .i3cOtherCcc code => Sys2Proof.Machine.execI3cOtherCcc code s
  | .i3cPrivateWrite data parityError queued => Sys2Proof.Machine.execI3cPrivateWrite data parityError queued s
  | .i3cPrivateRead => Sys2Proof.Machine.execI3cPrivateRead s
  | .rreg q addr len => Sys2Proof.Machine.execRreg q addr len s
  | .wreg q addr data => Sys2Proof.Machine.execWreg q addr data s
  | .odrd q index sub off len queued => Sys2Proof.Machine.execOdrd q index sub off len queued s
  | .odwr q index sub first last off data queued => Sys2Proof.Machine.execOdwr q index sub first last off data queued s
  | .oddesc q index sub queued => Sys2Proof.Machine.execOddesc q index sub queued s
  | .mgtFormatError q block => Sys2Proof.Machine.execMgtFormatError q block s
  | .stagingTimeout index sub => Sys2Proof.Machine.execStagingTimeout index sub s
  | .stepProbe fuseOk romOk => Sys2Proof.Machine.execStepProbe fuseOk romOk s
  | .stepFirmware => Sys2Proof.Machine.execStepFirmware s
  | .stepStraps samples => Sys2Proof.Machine.execStepStraps samples s
  | .stepTrain => Sys2Proof.Machine.execStepTrain s
  | .stepMap => Sys2Proof.Machine.execStepMap s
  | .stepTest engineOk defects => Sys2Proof.Machine.execStepTest engineOk defects s
  | .stepZero engineOk => Sys2Proof.Machine.execStepZero engineOk s
  | .stepClock => Sys2Proof.Machine.execStepClock s
  | .stepHelm => Sys2Proof.Machine.execStepHelm s
  | .stepSeal => Sys2Proof.Machine.execStepSeal s
  | .stepRun => Sys2Proof.Machine.execStepRun s
  | .stepDone elapsedUs => Sys2Proof.Machine.execStepDone elapsedUs s
  | .claim q term => Sys2Proof.Machine.execClaim q term s
  | .create => Sys2Proof.Machine.execCreate s
  | .dissolve => Sys2Proof.Machine.execDissolve s
  | .dissolveComplete p => Sys2Proof.Machine.execDissolveComplete p s
  | .privilegedClaim p => Sys2Proof.Machine.execPrivilegedClaim p s
  | .holdtExpiry p => Sys2Proof.Machine.execHoldtExpiry p s
  | .dumpreq q v timeUs => Sys2Proof.Machine.execDumpreq q v timeUs s
  | .imageWrite q slot image => Sys2Proof.Machine.execImageWrite q slot image s
  | .activate q slot => Sys2Proof.Machine.execActivate q slot s
  | .firmwareSwap kicked => Sys2Proof.Machine.execFirmwareSwap kicked s
  | .firmwareRevert => Sys2Proof.Machine.execFirmwareRevert s
  | .commit q svn => Sys2Proof.Machine.execCommit q svn s
  | .nonce q data => Sys2Proof.Machine.execNonce q data s
  | .attestationReportReady => Sys2Proof.Machine.execAttestationReportReady s
  | .watchdogExpiry third timeUs => Sys2Proof.Machine.execWatchdogExpiry third timeUs s
  | .loadWindowEnd load duty => Sys2Proof.Machine.execLoadWindowEnd load duty s
  | .telemetrySample r => Sys2Proof.Machine.execTelemetrySample r s
  | .persistentLogCopy => Sys2Proof.Machine.execPersistentLogCopy s
  | .fatalError cause timeUs => Sys2Proof.Machine.execFatalError cause timeUs s
  | .candidateEdgeTimeout => Sys2Proof.Machine.execCandidateEdgeTimeout s
  | .holdoverExpiry => Sys2Proof.Machine.execHoldoverExpiry s
  | .referenceLock => Sys2Proof.Machine.execReferenceLock s
  | .holdExamine p => Sys2Proof.Machine.execHoldExamine p s
  | .holdDecision p => Sys2Proof.Machine.execHoldDecision p s
  | .heldCycle p ccy => Sys2Proof.Machine.execHeldCycle p ccy s
  | .strokeDecode c => Sys2Proof.Machine.execStrokeDecode c s
  | .strokeTallyChange c => Sys2Proof.Machine.execStrokeTallyChange c s
  | .accumulate c row upsets => Sys2Proof.Machine.execAccumulate c row upsets s
  | .drain c row => Sys2Proof.Machine.execDrain c row s
  | .accumulateAndDrain c row upsets => Sys2Proof.Machine.execAccumulateAndDrain c row upsets s
  | .fp32Fma c row => Sys2Proof.Machine.execFp32Fma c row s
  | .fp64Fma c row => Sys2Proof.Machine.execFp64Fma c row s
  | .slotLoad c row => Sys2Proof.Machine.execSlotLoad c row s
  | .slotStore c row => Sys2Proof.Machine.execSlotStore c row s
  | .spill c row => Sys2Proof.Machine.execSpill c row s
  | .fill c row => Sys2Proof.Machine.execFill c row s
  | .convert c => Sys2Proof.Machine.execConvert c s
  | .mxEncode c => Sys2Proof.Machine.execMxEncode c s
  | .add c => Sys2Proof.Machine.execAdd c s
  | .subtract c => Sys2Proof.Machine.execSubtract c s
  | .multiply c => Sys2Proof.Machine.execMultiply c s
  | .fma c => Sys2Proof.Machine.execFma c s
  | .compareEq c => Sys2Proof.Machine.execCompareEq c s
  | .compareNe c => Sys2Proof.Machine.execCompareNe c s
  | .compareLt c => Sys2Proof.Machine.execCompareLt c s
  | .compareLe c => Sys2Proof.Machine.execCompareLe c s
  | .compareGt c => Sys2Proof.Machine.execCompareGt c s
  | .compareGe c => Sys2Proof.Machine.execCompareGe c s
  | .compareUnord c => Sys2Proof.Machine.execCompareUnord c s
  | .minimum c => Sys2Proof.Machine.execMinimum c s
  | .maximum c => Sys2Proof.Machine.execMaximum c s
  | .minimumNumber c => Sys2Proof.Machine.execMinimumNumber c s
  | .maximumNumber c => Sys2Proof.Machine.execMaximumNumber c s
  | .divide c => Sys2Proof.Machine.execDivide c s
  | .sqrt c => Sys2Proof.Machine.execSqrt c s
  | .exp c => Sys2Proof.Machine.execExp c s
  | .log c => Sys2Proof.Machine.execLog c s
  | .relu c => Sys2Proof.Machine.execRelu c s
  | .gelu c => Sys2Proof.Machine.execGelu c s
  | .silu c => Sys2Proof.Machine.execSilu c s
  | .sigmoid c => Sys2Proof.Machine.execSigmoid c s
  | .tanh c => Sys2Proof.Machine.execTanh c s
  | .reduceSum c => Sys2Proof.Machine.execReduceSum c s
  | .reduceMax c => Sys2Proof.Machine.execReduceMax c s
  | .reduceMin c => Sys2Proof.Machine.execReduceMin c s
  | .flagCapture c => Sys2Proof.Machine.execFlagCapture c s
  | .nop c => Sys2Proof.Machine.execNop c s
  | .idle c => Sys2Proof.Machine.execIdle c s
  | .loop c => Sys2Proof.Machine.execLoop c s
  | .setmask c => Sys2Proof.Machine.execSetmask c s
  | .ldwalk c => Sys2Proof.Machine.execLdwalk c s
  | .rstwalk c => Sys2Proof.Machine.execRstwalk c s
  | .ldbase c => Sys2Proof.Machine.execLdbase c s
  | .addbase c => Sys2Proof.Machine.execAddbase c s
  | .tbind c => Sys2Proof.Machine.execTbind c s
  | .tidewait c => Sys2Proof.Machine.execTidewait c s
  | .tide c => Sys2Proof.Machine.execTide c s
  | .selfenq c => Sys2Proof.Machine.execSelfenq c s
  | .leg c => Sys2Proof.Machine.execLeg c s
  | .endStroke c => Sys2Proof.Machine.execEndStroke c s
  | .legLimitOverrun p => Sys2Proof.Machine.execLegLimitOverrun p s
  | .bFetch c bank => Sys2Proof.Machine.execBFetch c bank s
  | .bSliceArrival c => Sys2Proof.Machine.execBSliceArrival c s
  | .sailing p flips => Sys2Proof.Machine.execSailing p flips s
  | .landingBufferWrite w => Sys2Proof.Machine.execLandingBufferWrite w s
  | .remoteWrite w => Sys2Proof.Machine.execRemoteWrite w s
  | .zeroEngineClear c store busy => Sys2Proof.Machine.execZeroEngineClear c store busy s
  | .zeroingComplete c => Sys2Proof.Machine.execZeroingComplete c s
  | .scrub c => Sys2Proof.Machine.execScrub c s
  | .correctedLineWriteback c => Sys2Proof.Machine.execCorrectedLineWriteback c s
  | .windowOpen q c g v => Sys2Proof.Machine.execWindowOpen q c g v s
  | .windowClose q c g v => Sys2Proof.Machine.execWindowClose q c g v s
  | .gwcrdWrite q c g v => Sys2Proof.Machine.execGwcrdWrite q c g v s
  | .gwaddWrite q c g v => Sys2Proof.Machine.execGwaddWrite q c g v s
  | .lmapWrite q c n v => Sys2Proof.Machine.execLmapWrite q c n v s
  | .legmaxLusWrite q c v => Sys2Proof.Machine.execLegmaxLusWrite q c v s
  | .tallyValueWrite q t v => Sys2Proof.Machine.execTallyValueWrite q t v s
  | .cohSnpi line => Sys2Proof.Machine.execCohSnpi line s
  | .cohData line owned data => Sys2Proof.Machine.execCohData line owned data s
  | .cohCmp line => Sys2Proof.Machine.execCohCmp line s
  | .manifestFetch p data => Sys2Proof.Machine.execManifestFetch p data s
  | .manifestCheck p f => Sys2Proof.Machine.execManifestCheck p f s
  | .berthLoadComplete c h => Sys2Proof.Machine.execBerthLoadComplete c h s
  | .loadComplete p => Sys2Proof.Machine.execLoadComplete p s
  | .voyageStart p => Sys2Proof.Machine.execVoyageStart p s
  | .voyageComplete p => Sys2Proof.Machine.execVoyageComplete p s
  | .recordDelivered p => Sys2Proof.Machine.execRecordDelivered p s
  | .selfenqCopy p => Sys2Proof.Machine.execSelfenqCopy p s
  | .batchClose p waited => Sys2Proof.Machine.execBatchClose p waited s
  | .eventAppend => Sys2Proof.Machine.execEventAppend s
  | .pcmdReset q p => Sys2Proof.Machine.execPcmdReset q p s
  | .pcmdAbort q p => Sys2Proof.Machine.execPcmdAbort q p s
  | .pcmdHalt q p => Sys2Proof.Machine.execPcmdHalt q p s
  | .pcmdGo q p => Sys2Proof.Machine.execPcmdGo q p s
  | .ringIdxWrite q r v => Sys2Proof.Machine.execRingIdxWrite q r v s
  | .scmdRead q index fetched => Sys2Proof.Machine.execScmdRead q index fetched s
  | .scmdWrite q index fetched => Sys2Proof.Machine.execScmdWrite q index fetched s
  | .scmdPause q index fetched => Sys2Proof.Machine.execScmdPause q index fetched s
  | .scmdResume q index fetched => Sys2Proof.Machine.execScmdResume q index fetched s
  | .scmdFree q index fetched => Sys2Proof.Machine.execScmdFree q index fetched s
  | .scmdFlush q index fetched => Sys2Proof.Machine.execScmdFlush q index fetched s
  | .descriptorFetch p data => Sys2Proof.Machine.execDescriptorFetch p data s
  | .descriptorPlacement p => Sys2Proof.Machine.execDescriptorPlacement p s
  | .engineChoose e => Sys2Proof.Machine.execEngineChoose e s
  | .ferryPieceIssue e => Sys2Proof.Machine.execFerryPieceIssue e s
  | .ferryPieceResponse e r => Sys2Proof.Machine.execFerryPieceResponse e r s
  | .descriptorEnd e => Sys2Proof.Machine.execDescriptorEnd e s
  | .bucketRefill => Sys2Proof.Machine.execBucketRefill s
  | .stealAttempt e => Sys2Proof.Machine.execStealAttempt e s
  | .chartWalkComplete id entries => Sys2Proof.Machine.execChartWalkComplete id entries s
  | .faultRecordWrite => Sys2Proof.Machine.execFaultRecordWrite s
  | .rescmdRetry q eng slot => Sys2Proof.Machine.execRescmdRetry q eng slot s
  | .rescmdAbort q eng slot => Sys2Proof.Machine.execRescmdAbort q eng slot s
  | .preempt q e => Sys2Proof.Machine.execPreempt q e s
  | .generationDrained p ccyTaken => Sys2Proof.Machine.execGenerationDrained p ccyTaken s
  | .drainOverrun p => Sys2Proof.Machine.execDrainOverrun p s
  | .invPartition q p => Sys2Proof.Machine.execInvPartition q p s
  | .invRange q p va => Sys2Proof.Machine.execInvRange q p va s
  | .invStreamPages q p => Sys2Proof.Machine.execInvStreamPages q p s
  | .invalidationComplete => Sys2Proof.Machine.execInvalidationComplete s
  | .helmTideNotice => Sys2Proof.Machine.execHelmTideNotice s
  | .synNotice tide term => Sys2Proof.Machine.execSynNotice tide term s
  | .dieArrival ccy => Sys2Proof.Machine.execDieArrival ccy s
  | .tideSeal sinceStepUj ccy => Sys2Proof.Machine.execTideSeal sinceStepUj ccy s
  | .synSeal src tide => Sys2Proof.Machine.execSynSeal src tide s
  | .helmRelease => Sys2Proof.Machine.execHelmRelease s
  | .synRelease tide term cclk stall ccy => Sys2Proof.Machine.execSynRelease tide term cclk stall ccy s
  | .reconStart ccy => Sys2Proof.Machine.execReconStart ccy s
  | .rampStart ccy => Sys2Proof.Machine.execRampStart ccy s
  | .rampWaveEnd waits ccy => Sys2Proof.Machine.execRampWaveEnd waits ccy s
  | .tlateExpiry p => Sys2Proof.Machine.execTlateExpiry p s
  | .tideStall => Sys2Proof.Machine.execTideStall s
  | .synTally h tally amount tide => Sys2Proof.Machine.execSynTally h tally amount tide s
  | .synTack src tally => Sys2Proof.Machine.execSynTack src tally s
  | .synClaim term pos => Sys2Proof.Machine.execSynClaim term pos s
  | .synDigest src epoch digest => Sys2Proof.Machine.execSynDigest src epoch digest s
  | .synCclk l khz => Sys2Proof.Machine.execSynCclk l khz s
  | .tollReport src r => Sys2Proof.Machine.execTollReport src r s
  | .grantCompute => Sys2Proof.Machine.execGrantCompute s
  | .tollGrant tide grant term => Sys2Proof.Machine.execTollGrant tide grant term s
  | .cret l cls credits => Sys2Proof.Machine.execCret l cls credits s
  | .memBwr l h data => Sys2Proof.Machine.execMemBwr l h data s
  | .memUnsupportedRequest l h => Sys2Proof.Machine.execMemUnsupportedRequest l h s
  | .memRdr l h data => Sys2Proof.Machine.execMemRdr l h data s
  | .memWack l h => Sys2Proof.Machine.execMemWack l h s
  | .memErr l h code => Sys2Proof.Machine.execMemErr l h code s
  | .cxlNdrCmp l tag error => Sys2Proof.Machine.execCxlNdrCmp l tag error s
  | .cxlDrsMemdata l tag poison data => Sys2Proof.Machine.execCxlDrsMemdata l tag poison data s
  | .torecReservedMessage l h => Sys2Proof.Machine.execTorecReservedMessage l h s
  | .torecForward l h data => Sys2Proof.Machine.execTorecForward l h data s
  | .dbgTrace l h data => Sys2Proof.Machine.execDbgTrace l h data s
  | .capabilityBlock l data => Sys2Proof.Machine.execCapabilityBlock l data s
  | .capabilityTimeout l => Sys2Proof.Machine.execCapabilityTimeout l s
  | .sidebandUpTimeout l m => Sys2Proof.Machine.execSidebandUpTimeout l m s
  | .trainingComplete l t => Sys2Proof.Machine.execTrainingComplete l t s
  | .frameReceive l f => Sys2Proof.Machine.execFrameReceive l f s
  | .slipDelivery l slot => Sys2Proof.Machine.execSlipDelivery l slot s
  | .elasticResend l => Sys2Proof.Machine.execElasticResend l s
  | .laneError l m lane n => Sys2Proof.Machine.execLaneError l m lane n s
  | .rtreq l pos m kind => Sys2Proof.Machine.execRtreq l pos m kind s
  | .rtack l => Sys2Proof.Machine.execRtack l s
  | .rtnak l => Sys2Proof.Machine.execRtnak l s
  | .rtreqTimeout l => Sys2Proof.Machine.execRtreqTimeout l s
  | .rtcmdRetrain q l m => Sys2Proof.Machine.execRtcmdRetrain q l m s
  | .rtcmdRetire q l m => Sys2Proof.Machine.execRtcmdRetire q l m s
  | .rtcmdRestore q l m => Sys2Proof.Machine.execRtcmdRestore q l m s
  | .moduleRetrainComplete l m => Sys2Proof.Machine.execModuleRetrainComplete l m s
  | .retrainTimeout l m => Sys2Proof.Machine.execRetrainTimeout l m s
  | .moduleLockLoss l m => Sys2Proof.Machine.execModuleLockLoss l m s
  | .faultDetected r late => Sys2Proof.Machine.execFaultDetected r late s
  | .legRestoreComplete p => Sys2Proof.Machine.execLegRestoreComplete p s
  | .rcmdReplay q p => Sys2Proof.Machine.execRcmdReplay q p s
  | .rcmdRemap q p c core => Sys2Proof.Machine.execRcmdRemap q p c core s
  | .rcmdFence q p c => Sys2Proof.Machine.execRcmdFence q p c s
  | .rcmdEnd q p => Sys2Proof.Machine.execRcmdEnd q p s
  | .rwdExpiry p => Sys2Proof.Machine.execRwdExpiry p s
  | .joinTimeout p => Sys2Proof.Machine.execJoinTimeout p s
  | .powerControlStep m => Sys2Proof.Machine.execPowerControlStep m s
  | .thermalSample temps => Sys2Proof.Machine.execThermalSample temps s
  | .throttleUpdate same => Sys2Proof.Machine.execThrottleUpdate same s
  | .overcurrentClamp rail => Sys2Proof.Machine.execOvercurrentClamp rail s
  | .railFault rail => Sys2Proof.Machine.execRailFault rail s
  | .thermalTrip sensor => Sys2Proof.Machine.execThermalTrip sensor s
  | .droopDetect region mv => Sys2Proof.Machine.execDroopDetect region mv s
  | .loopTestStart q v => Sys2Proof.Machine.execLoopTestStart q v s
  | .loopTestEnd errs eye => Sys2Proof.Machine.execLoopTestEnd errs eye s
  | .captureArm q v => Sys2Proof.Machine.execCaptureArm q v s
  | .sidebandUp l m => Sys2Proof.Machine.execSidebandUp l m s
  | .partnerRetrain l m done => Sys2Proof.Machine.execPartnerRetrain l m done s
  | .adapterRetry l => Sys2Proof.Machine.execAdapterRetry l s
  | .clampRelease rail ns => Sys2Proof.Machine.execClampRelease rail ns s
  | .candidateClockChange cand clocked => Sys2Proof.Machine.execCandidateClockChange cand clocked s

end Sys2Proof.Machine
end

