-- ==== Sys2Proof/Safety.lean ====
section
/-! DEFINITION. What counts as a safe run: no step of it stops. -/

namespace Sys2Proof

/-- The outcome is a next state. -/
def Completes (o : Host.Outcome Machine.State Machine.Fault Machine.Refusal) : Prop := ∃ t, o = .next t

/-- `n` steps from a state all complete. -/
def SafeFor : Nat → Machine.State → Prop
  | 0, _ => True
  | n + 1, s => ∃ t, Machine.step s = .next t ∧ SafeFor n t

end Sys2Proof
end

