-- ==== Sys2Proof/WellFormed.lean ====
section
/-! DEFINITION. Which commands are well formed: their operands lie in the ranges that the rules of their rows give, and the
lists that stand for a fixed number of things have that number. -/

namespace Sys2Proof

/-- The cluster that a fault report names, if it names one (R441). -/
def reportIndex (r : FaultReport) : Option Nat :=
  match r with
  | .lane c _ _ _ => some c
  | .fma c _ _ => some c
  | .post c _ => some c
  | .store c _ _ => some c
  | .table c _ => some c
  | .sailTable c => some c
  | .router c => some c
  | .link c _ => some c
  | .tally _ => none

/-- A sample has one reading for each sensor of its kind (R470). -/
def telemetryLength (r : Telemetry) : Bool :=
  match r with
  | .thermal t => decide (t.length = 64)
  | .rails v => decide (v.length = 36)
  | .droop v => decide (v.length = 25)
  | .eye v => decide (v.length = 32)
  | .process v => decide (v.length = 8)

/-- A command is well formed. `exec` answers a next state for the others too; what it then does no rule gives. -/
def WellFormed (i : Instr) : Bool :=
  match i with
  | .vinPowerOn => true
  | .pwrgdRise => true
  | .pwrgdFall => true
  | .vinUndervoltage => true
  | .rstNFall => true
  | .rstNRise _ _ => true
  | .trstNAssert => true
  | .bypass _ => true
  | .idcode => true
  | .samplePreload _ _ => true
  | .extest _ _ => true
  | .clamp _ => true
  | .highz _ => true
  | .satest _ => true
  | .scanrd _ => true
  | .dbgreg _ => true
  | .entdaa _ => true
  | .rstdaa => true
  | .setmwl _ => true
  | .getmwl => true
  | .setmrl _ => true
  | .getmrl => true
  | .getpid => true
  | .getbcr => true
  | .getdcr => true
  | .getstatus => true
  | .enec _ => true
  | .disec _ => true
  | .rstact _ => true
  | .i3cOtherCcc _ => true
  | .i3cPrivateWrite _ _ queued => decide (queued ≤ 64)
  | .i3cPrivateRead => true
  | .rreg _ addr len => decide (addr < 2 ^ 32) && decide (len < 2 ^ 16)
  | .wreg _ addr data => decide (addr < 2 ^ 32) && decide (data.length < 2 ^ 16)
  | .odrd _ _ _ off len queued => decide (off < 2 ^ 32) && decide (len < 2 ^ 16) && decide (queued ≤ 64)
  | .odwr _ _ _ _ _ off data queued => decide (off < 2 ^ 32) && decide (data.length < 2 ^ 16) && decide (queued ≤ 64)
  | .oddesc _ _ _ queued => decide (queued ≤ 64)
  | .mgtFormatError _ block => decide (block.length ≤ 256)
  | .stagingTimeout _ _ => true
  | .stepProbe _ _ => true
  | .stepFirmware => true
  | .stepStraps samples => decide (samples.length = 4)
  | .stepTrain => true
  | .stepMap => true
  | .stepTest _ _ => true
  | .stepZero _ => true
  | .stepClock => true
  | .stepHelm => true
  | .stepSeal => true
  | .stepRun => true
  | .stepDone elapsedUs => decide (elapsedUs < 2 ^ 32)
  | .claim _ _ => true
  | .create => true
  | .dissolve => true
  | .dissolveComplete _ => true
  | .privilegedClaim _ => true
  | .holdtExpiry _ => true
  | .dumpreq _ _ timeUs => decide (timeUs < 2 ^ 64)
  | .imageWrite _ _ _ => true
  | .activate _ _ => true
  | .firmwareSwap _ => true
  | .firmwareRevert => true
  | .commit _ _ => true
  | .nonce _ _ => true
  | .attestationReportReady => true
  | .watchdogExpiry _ timeUs => decide (timeUs < 2 ^ 64)
  | .loadWindowEnd load duty => decide (load ≤ 100) && decide (duty.length = 5)
  | .telemetrySample r => telemetryLength r
  | .persistentLogCopy => true
  | .fatalError cause timeUs => decide (cause.val ≠ 0) && decide (timeUs < 2 ^ 64)
  | .candidateEdgeTimeout => true
  | .holdoverExpiry => true
  | .referenceLock => true
  | .holdExamine _ => true
  | .holdDecision _ => true
  | .heldCycle _ _ => true
  | .strokeDecode c => decide (c < 1250)
  | .strokeTallyChange c => decide (c < 1250)
  | .accumulate c _ _ => decide (c < 1250)
  | .drain c _ => decide (c < 1250)
  | .accumulateAndDrain c _ _ => decide (c < 1250)
  | .fp32Fma c _ => decide (c < 1250)
  | .fp64Fma c _ => decide (c < 1250)
  | .slotLoad c _ => decide (c < 1250)
  | .slotStore c _ => decide (c < 1250)
  | .spill c _ => decide (c < 1250)
  | .fill c _ => decide (c < 1250)
  | .convert c => decide (c < 1250)
  | .mxEncode c => decide (c < 1250)
  | .add c => decide (c < 1250)
  | .subtract c => decide (c < 1250)
  | .multiply c => decide (c < 1250)
  | .fma c => decide (c < 1250)
  | .compareEq c => decide (c < 1250)
  | .compareNe c => decide (c < 1250)
  | .compareLt c => decide (c < 1250)
  | .compareLe c => decide (c < 1250)
  | .compareGt c => decide (c < 1250)
  | .compareGe c => decide (c < 1250)
  | .compareUnord c => decide (c < 1250)
  | .minimum c => decide (c < 1250)
  | .maximum c => decide (c < 1250)
  | .minimumNumber c => decide (c < 1250)
  | .maximumNumber c => decide (c < 1250)
  | .divide c => decide (c < 1250)
  | .sqrt c => decide (c < 1250)
  | .exp c => decide (c < 1250)
  | .log c => decide (c < 1250)
  | .relu c => decide (c < 1250)
  | .gelu c => decide (c < 1250)
  | .silu c => decide (c < 1250)
  | .sigmoid c => decide (c < 1250)
  | .tanh c => decide (c < 1250)
  | .reduceSum c => decide (c < 1250)
  | .reduceMax c => decide (c < 1250)
  | .reduceMin c => decide (c < 1250)
  | .flagCapture c => decide (c < 1250)
  | .nop c => decide (c < 1250)
  | .idle c => decide (c < 1250)
  | .loop c => decide (c < 1250)
  | .setmask c => decide (c < 1250)
  | .ldwalk c => decide (c < 1250)
  | .rstwalk c => decide (c < 1250)
  | .ldbase c => decide (c < 1250)
  | .addbase c => decide (c < 1250)
  | .tbind c => decide (c < 1250)
  | .tidewait c => decide (c < 1250)
  | .tide c => decide (c < 1250)
  | .selfenq c => decide (c < 1250)
  | .leg c => decide (c < 1250)
  | .endStroke c => decide (c < 1250)
  | .legLimitOverrun _ => true
  | .bFetch c _ => decide (c < 1250)
  | .bSliceArrival c => decide (c < 1250)
  | .sailing _ _ => true
  | .landingBufferWrite w => decide (w.cluster < 1250) && decide (w.data.length = 64) && decide (w.part < 16)
  | .remoteWrite w => decide (w.cluster < 1250) && decide (w.handle < 128) && decide (w.part < 16)
  | .zeroEngineClear c _ _ => decide (c < 1250)
  | .zeroingComplete c => decide (c < 1250)
  | .scrub c => decide (c < 1250)
  | .correctedLineWriteback c => decide (c < 1250)
  | .windowOpen _ c _ _ => decide (c < 1250)
  | .windowClose _ c _ _ => decide (c < 1250)
  | .gwcrdWrite _ c _ _ => decide (c < 1250)
  | .gwaddWrite _ c _ _ => decide (c < 1250)
  | .lmapWrite _ c _ _ => decide (c < 1250)
  | .legmaxLusWrite _ c _ => decide (c < 1250)
  | .tallyValueWrite _ _ _ => true
  | .cohSnpi _ => true
  | .cohData _ _ data => decide (data.length = 64)
  | .cohCmp _ => true
  | .manifestFetch _ _ => true
  | .manifestCheck _ _ => true
  | .berthLoadComplete c _ => decide (c < 1250)
  | .loadComplete _ => true
  | .voyageStart _ => true
  | .voyageComplete _ => true
  | .recordDelivered _ => true
  | .selfenqCopy _ => true
  | .batchClose _ _ => true
  | .eventAppend => true
  | .pcmdReset _ _ => true
  | .pcmdAbort _ _ => true
  | .pcmdHalt _ _ => true
  | .pcmdGo _ _ => true
  | .ringIdxWrite _ _ _ => true
  | .scmdRead _ _ fetched => decide (fetched.length ≤ 64)
  | .scmdWrite _ _ fetched => decide (fetched.length ≤ 64)
  | .scmdPause _ _ fetched => decide (fetched.length ≤ 64)
  | .scmdResume _ _ fetched => decide (fetched.length ≤ 64)
  | .scmdFree _ _ fetched => decide (fetched.length ≤ 64)
  | .scmdFlush _ _ fetched => decide (fetched.length ≤ 64)
  | .descriptorFetch _ _ => true
  | .descriptorPlacement _ => true
  | .engineChoose _ => true
  | .ferryPieceIssue _ => true
  | .ferryPieceResponse _ _ => true
  | .descriptorEnd _ => true
  | .bucketRefill => true
  | .stealAttempt _ => true
  | .chartWalkComplete _ _ => true
  | .faultRecordWrite => true
  | .rescmdRetry _ _ _ => true
  | .rescmdAbort _ _ _ => true
  | .preempt _ _ => true
  | .generationDrained _ _ => true
  | .drainOverrun _ => true
  | .invPartition _ _ => true
  | .invRange _ _ _ => true
  | .invStreamPages _ _ => true
  | .invalidationComplete => true
  | .helmTideNotice => true
  | .synNotice _ _ => true
  | .dieArrival _ => true
  | .tideSeal _ _ => true
  | .synSeal _ _ => true
  | .helmRelease => true
  | .synRelease _ _ _ _ _ => true
  | .reconStart _ => true
  | .rampStart _ => true
  | .rampWaveEnd waits _ => decide (waits.length = 16)
  | .tlateExpiry _ => true
  | .tideStall => true
  | .synTally _ _ amount _ => decide (amount.natAbs < 2 ^ 31)
  | .synTack _ _ => true
  | .synClaim _ _ => true
  | .synDigest _ _ digest => decide (digest.length = 48)
  | .synCclk _ _ => true
  | .tollReport _ _ => true
  | .grantCompute => true
  | .tollGrant _ _ _ => true
  | .cret _ _ _ => true
  | .memBwr _ h data => decide (data.length ≤ 16 * h.len.toNat)
  | .memUnsupportedRequest _ _ => true
  | .memRdr _ h data => decide (data.length ≤ 16 * h.len.toNat)
  | .memWack _ _ => true
  | .memErr _ _ _ => true
  | .cxlNdrCmp _ _ _ => true
  | .cxlDrsMemdata _ _ _ data => decide (data.length = 64)
  | .torecReservedMessage _ _ => true
  | .torecForward _ h data => decide (data.length ≤ 16 * h.len.toNat)
  | .dbgTrace _ h data => decide (data.length ≤ 16 * h.len.toNat)
  | .capabilityBlock _ data => decide (data.length = 32)
  | .capabilityTimeout _ => true
  | .sidebandUpTimeout _ _ => true
  | .trainingComplete _ t => decide (t.rate.toNat ≤ 2) && decide (t.pmod.length = 4)
  | .frameReceive _ f => decide (f.pos.length ≤ 8) && f.pos.all (fun b => b.length == 64)
  | .slipDelivery _ _ => true
  | .elasticResend _ => true
  | .laneError _ _ _ _ => true
  | .rtreq _ _ _ _ => true
  | .rtack _ => true
  | .rtnak _ => true
  | .rtreqTimeout _ => true
  | .rtcmdRetrain _ _ _ => true
  | .rtcmdRetire _ _ _ => true
  | .rtcmdRestore _ _ _ => true
  | .moduleRetrainComplete _ _ => true
  | .retrainTimeout _ _ => true
  | .moduleLockLoss _ _ => true
  | .faultDetected r _ => (reportIndex r).all (fun c => decide (c < 1250))
  | .legRestoreComplete _ => true
  | .rcmdReplay _ _ => true
  | .rcmdRemap _ _ _ _ => true
  | .rcmdFence _ _ _ => true
  | .rcmdEnd _ _ => true
  | .rwdExpiry _ => true
  | .joinTimeout _ => true
  | .powerControlStep m => decide (m.railEnergy.length = 36) && decide (m.i2.length = 36) && decide (m.i20.length = 36) && decide (m.mv.length = 36) && decide (m.landBytes.length ≤ 17) && decide (m.ferryBytes.length ≤ 17) && decide (m.held.length = 16)
  | .thermalSample temps => decide (temps.length = 64)
  | .throttleUpdate same => decide (same ≤ 100)
  | .overcurrentClamp _ => true
  | .railFault _ => true
  | .thermalTrip _ => true
  | .droopDetect _ _ => true
  | .loopTestStart _ _ => true
  | .loopTestEnd _ eye => decide (eye.length = 32)
  | .captureArm _ _ => true
  | .sidebandUp _ _ => true
  | .partnerRetrain _ _ _ => true
  | .adapterRetry _ => true
  | .clampRelease _ _ => true
  | .candidateClockChange _ _ => true

end Sys2Proof
end

