-- ==== Sys2Proof/Certificates/Slice0/Obligations.lean ====
section
/-! DEFINITION. The statements about the model, and the few words they are stated with. -/

namespace Sys2Proof.Claim

open Sys2Proof.Machine

/-- The command answers a next state, of which `P` holds. -/
def Runs (i : Instr) (s : State) (P : State → Prop) : Prop := ∃ t, exec i s = .next t ∧ P t

/-- Every register of the window is as before, but for those at the addresses of `l`. -/
def RegsBut (l : List Nat) (s t : State) : Prop := ∀ a, a ∉ l → SMap.find t.regs a = SMap.find s.regs a

/-- Nothing but cluster `c` has changed. -/
def OnlyCluster (c : Nat) (s t : State) : Prop := t = { s with cl := t.cl } ∧ ∀ d, d ≠ c → t.clu d = s.clu d

/-- Nothing has changed but registers at the addresses of `l`, and what the pilot of cluster `c` has carried out. -/
def CarriedOut (c k : Nat) (l : List Nat) (s t : State) : Prop :=
  t = { s.doneField c k with regs := t.regs } ∧ RegsBut l s t

/-- The contents of every store of a cluster are in canonical form. -/
def StoresOk (k : Cluster) : Prop :=
  k.w.wf = true ∧ k.a.wf = true ∧ k.p.wf = true ∧ k.sh.wf = true ∧ k.ins.wf = true

/-- What every step keeps: the event queue (R306) and the ring log (R484) within their sizes, the register words and the lines
of the COH window listed at strictly rising addresses and numbers, and the contents of every store canonical. -/
def Inv (s : State) : Prop :=
  s.evq.length ≤ 1024 ∧ s.ringLog.length ≤ 256 ∧ s.regs.Pairwise (fun a b => a.1 < b.1) ∧
    s.coh.Pairwise (fun a b => a.1 < b.1) ∧ ∀ c, StoresOk (s.clu c)

/-- The value of element `i` of source `k` (1 to 3) of a post stroke in a core, decoded in its own format (R160). -/
def postSource (s : State) (c core : Nat) (e : Ent) (k i n : Nat) : Val :=
  let q := postField e.word
  let f := fmtD (if k = 1 then bits q 38 4 else if k = 2 then bits q 34 4 else bits q 30 4)
  let walk := 24 + (if k = 1 then bits q 24 2 else if k = 2 then bits q 22 2 else bits q 20 2)
  listGet (.fin false 0 0) (s.sourceVals c core e walk f n) i

/-- What a post operation of `n` results and latency `lat` does (R132, R160): in every core of the mask, result `i` is on its
way to element `i` of the result walk, and its flags to the flag word, `lat` schedule cycles after issue; `f` gives result
and flags from the first three sources. Nothing else of the die changes, and nothing at all where the stroke is not there. -/
def PostLands (i : Instr) (c pop : Nat) (n lat : Fmt → Nat) (f : RCtx → Fmt → Nat → Val → Val → Val → Nat × Nat) : Prop :=
  (∀ s : State, s.coreOn = true → s.postEnt c pop = none → exec i s = .next s) ∧
  ∀ (s : State) (e : Ent), s.coreOn = true → s.postEnt c pop = some e → (s.clu c).ecc = [] → Runs i s fun t =>
    let q := postField e.word
    let pt := fmtD (bits q 30 4)
    let ctx := s.rctx c e (bits q 27 3) (bitAt q 26)
    let wk := s.walkCfg c (24 + bits q 18 2)
    OnlyCluster c s t ∧ t.postEnt c pop = none ∧ ∀ core ∈ coresOf e.mask, ∀ j < n pt,
      let a := (wk.point (s.word .CLU_BPD [c, core]) 0 (e.posOf (24 + bits q 18 2))).1
      let r := f ctx pt (a.toNat + j) (postSource s c core e 1 j (n pt)) (postSource s c core e 2 j (n pt))
        (postSource s c core e 3 j (n pt))
      ⟨e.cyc + lat pt, e.cyc, .put (s.berthStore c wk.berth) (s.elemPos c wk.berth pt.width a + j * pt.width) pt.width r.1⟩
        ∈ (t.clu c).pend

/-- The registers whose writes the spec gives rules of their own. -/
def ownRuleRegs : List RegId :=
  [.CLU_CFLAG, .CLU_LMAP, .CLU_PLEGMAX, .CLU_GWCFG, .CLU_GWCRD, .CLU_GWADD, .CLU_BERTH, .CHN_RCFG, .CHN_SEG, .CHN_SAIL_IDX,
    .CHN_SAIL_DATA_0, .CHN_SAIL_DATA_1, .CHN_GWCFG, .CHN_GWPTR, .FE_CTL, .FE_COH_BASE, .FE_STAB_BASE, .FE_EVBASE, .FE_SCMD,
    .FE_RING_CFG, .FE_RING_BASE, .FE_RING_CPL, .FE_RING_IDX, .FE_PCFG, .FE_PCMD, .FRY_RESCMD, .FRY_ECMD, .CHT_INV, .CHT_ROOT,
    .CHT_PMAP, .TDE_TAL, .TDE_TCTL, .LND_CTL, .LND_RTCMD, .LND_FLCFG, .PWR_DROOP, .FLT_CTL, .FLT_RCMD, .DBG_CAP, .DBG_LOOP,
    .DBG_CTL, .DBG_TRCFG, .DBG_TRSTAT, .DBG_LOOPST, .DBG_TRBUF]

/-- An access refused for lack of rights: it is DENIED, and changes no register but DDENY and what an event posted changes. -/
def Denied (s t : State) : Prop :=
  t.lastStat = 1 ∧ RegsBut [regAddr .MGT_CNT [], regAddr .FE_EVSTAT []] s t ∧ t.cl = s.cl ∧ t.pt = s.pt ∧ t.fe = s.fe

/-- The commands of the supplies, the reset input and the test access port, which act in reset. -/
def actsInReset : Instr → Bool
  | .vinPowerOn | .pwrgdRise | .pwrgdFall | .vinUndervoltage | .rstNFall | .rstNRise .. | .trstNAssert | .bypass _ | .idcode
  | .samplePreload .. | .extest .. | .clamp _ | .highz _ | .satest _ | .scanrd _ | .dbgreg _ => true
  | _ => false

/-- The commands that act while a trip has stopped the clocks: those, and the commands of the management processor, of its
ports and of the sensors. -/
def actsUnclocked (c : Instr) : Bool :=
  actsInReset c || match c with
  | .entdaa _ | .rstdaa | .setmwl _ | .getmwl | .setmrl _ | .getmrl | .getpid | .getbcr | .getdcr | .getstatus | .enec _ | .disec _
  | .rstact _ | .i3cOtherCcc _ | .i3cPrivateWrite .. | .i3cPrivateRead | .rreg .. | .wreg .. | .odrd .. | .odwr .. | .oddesc ..
  | .mgtFormatError .. | .stagingTimeout .. | .stepProbe .. | .stepFirmware | .stepStraps _ | .stepDone _ | .dumpreq ..
  | .imageWrite .. | .activate .. | .firmwareSwap _ | .firmwareRevert | .commit .. | .nonce .. | .attestationReportReady
  | .watchdogExpiry .. | .loadWindowEnd .. | .telemetrySample _ | .fatalError .. | .thermalSample _ | .throttleUpdate _
  | .railFault _ | .thermalTrip _ | .candidateClockChange .. => true
  | _ => false

end Sys2Proof.Claim

open Sys2Proof Sys2Proof.Machine Sys2Proof.Claim

/-- A step runs the command at the front of the queue on the state with the rest of the queue. For every command c,
queue rest and state s, step of s with c at the front of its queue is exec c of s with the rest of the queue; with an
empty queue the block idles (the model's choice, log 3). -/
def Obligations.StepRunsFrontCommand : Prop :=
  ∀ s : State,
    (∀ (c : Instr) (rest : List Instr), step { s with pending := c :: rest } = exec c { s with pending := rest }) ∧
    (s.pending = [] → step s = .next s)

/-- Every command answers a next state that keeps the queue; in reset and while clocks stand still all but some leave
the state. For every command and every state, exec answers a next state (no fault, no refusal), and the queue of
waiting commands is as before: the command's effect is on everything but the queue. In reset, only the commands of
supplies, reset input and test access port change anything; while a trip has stopped the clocks, only those and the
commands of the management processor, its ports and the sensors (log 2). -/
def Obligations.EveryCommandAnswersAndKeepsTheQueue : Prop :=
  ∀ (c : Instr) (s : State), (Runs c s fun t => t.pending = s.pending) ∧
    (s.inReset = true → actsInReset c = false → exec c s = .next s) ∧
    (s.coreOn = false → actsUnclocked c = false → exec c s = .next s)

/-- No command changes what is fused, but COMMIT, which only raises SVNMIN. For every command c and state s, the state
after c holds the fuses of s in all but SVNMIN, and SVNMIN is not lower. -/
def Obligations.FusesStayAndSvnminNeverFalls : Prop :=
  ∀ (c : Instr) (s t : State), exec c s = .next t →
    t.fuses = { s.fuses with svnmin := t.fuses.svnmin } ∧ s.fuses.svnmin.toNat ≤ t.fuses.svnmin.toNat

/-- Every step keeps the event queue within 1,024 entries, the ring log within 256 records, and memories canonical.
For every state that meets the invariant, every step that answers a next state answers one that meets it: the on-die
event queue holds at most 1,024 entries, the ring log at most 256 records, the contents of every store of every
cluster are in canonical form, the register words are listed at strictly rising addresses, and the lines of the COH
window at strictly rising numbers. -/
def Obligations.StepsKeepTheInvariant : Prop :=
  ∀ s t : State, Inv s → step s = .next t → Inv t

/-- The state after reset meets the invariant that every step keeps, and its registers hold the values of their
tables. The reset state meets the invariant that every step keeps; no command waits; every register holds the word
that its table gives for reset, among them PENV 700, PBURST 900, the fault unit enabled with RWD 80 and RLIM 3, HPOS
63, the thermal threshold 105, the lane threshold 16, two spare sites in every cluster and the identity map of its
cores; the tide unit is in RUN with no tide released, every landing is DOWN and the MP is in ROM. -/
def Obligations.ResetMeetsTheInvariant : Prop :=
  Inv State.reset ∧ State.reset.pending = [] ∧ (∀ r ix, State.reset.word r ix = resetWord r ix) ∧
    State.reset.fld F.PWR_CTL.PENV [] = 700 ∧ State.reset.fld F.PWR_CTL.PBURST [] = 900 ∧ State.reset.fld F.FLT_CTL.EN [] = 1 ∧
    State.reset.fld F.FLT_CTL.RWD [] = 80 ∧ State.reset.fld F.FLT_CTL.RLIM [] = 3 ∧ State.reset.fld F.CLK_HELM_1.HPOS [] = 63 ∧
    State.reset.fld F.PWR_THCFG.TTHR [] = 105 ∧ State.reset.tst = 0 ∧ State.reset.tide.begun = false ∧ State.reset.mpst = 0 ∧
    (∀ l < 8, State.reset.lstate l = 0 ∧ State.reset.fld F.LND_THR.LTHR [l] = 16) ∧
    ∀ c < 1250, State.reset.fld F.CLU_CSITE.NSPARE [c] = 2 ∧ ∀ n < 64, State.reset.siteOf c n = n

/-- What supply and RST_N events do to the die: the reset state, CAUSE, and what survives. VIN_POWER_ON of a die
without VIN leaves the reset state with the fuses alone kept; PWRGD_FALL and VIN_UNDERVOLTAGE of a die that has the
supply leave it in reset with CAUSE 1; RST_N_FALL out of reset with CAUSE 2, or 3 after a trip, and in reset nothing
but its pad; each keeps the ring log, the fuses, SATEST, a latched trip, the TAP and (the model's reading, log 23, log
24) the firmware slots, and everything else is as at reset but for CLK_REF, CLK_RST, DBG_CTL and PWR_TSTAT; PWRGD_RISE
changes its pad alone, and the die is then in reset exactly while RST_N is low; RST_N_RISE samples the position straps
and clears a trip, which fires again where a sensor is hot and both supplies are up. An event that finds its pad as it
leaves it changes nothing. -/
def Obligations.SuppliesAndResetInputResetTheDie : Prop :=
  ∀ s : State,
    let kept := fun (t : State) => RegsBut [regAddr .CLK_REF [], regAddr .CLK_RST [], regAddr .DBG_CTL [], regAddr .PWR_TSTAT []]
        State.reset t ∧
      t = { State.reset with
        regs := t.regs, pads := t.pads, pending := s.pending, fuses := s.fuses, ringLog := s.ringLog, out := s.out, tap := s.tap,
        free := s.free, mp := { Mp.empty with
          slotA := s.mp.slotA, slotB := s.mp.slotB, rlNew := s.mp.rlNew, dataGen := s.mp.dataGen } } ∧
      t.inReset = true ∧ t.fld F.DBG_CTL.SATEST [] = s.fld F.DBG_CTL.SATEST [] ∧
      t.fld F.PWR_TSTAT.TRIP [] = s.fld F.PWR_TSTAT.TRIP []
    (s.pads.vin = false → Runs .vinPowerOn s fun t => t.pads = { s.pads with vin := true, thermtrip := false } ∧
      RegsBut [regAddr .CLK_REF []] State.reset t ∧
      t = { State.reset with
        regs := t.regs, pads := t.pads, pending := s.pending, fuses := s.fuses, out := s.out, free := s.free }) ∧
    (s.pads.vin = true → exec .vinPowerOn s = .next s) ∧
    (s.pads.vin = true → Runs .pwrgdRise s fun t =>
      t = { s with pads := { s.pads with pwrgd := true } } ∧ t.inReset = !s.pads.rstn) ∧
    (s.pads.vin = false → exec .pwrgdRise s = .next s) ∧
    (s.pads.pwrgd = true → Runs .pwrgdFall s fun t =>
      kept t ∧ t.pads = { s.pads with pwrgd := false } ∧ t.fld F.CLK_RST.CAUSE [] = 1) ∧
    (s.pads.pwrgd = false → exec .pwrgdFall s = .next s) ∧
    (s.pads.vin = true → Runs .vinUndervoltage s fun t =>
      kept t ∧ t.pads = { s.pads with vin := false } ∧ t.fld F.CLK_RST.CAUSE [] = 1) ∧
    (s.pads.vin = false → exec .vinUndervoltage s = .next s) ∧
    (s.pads.rstn = true → s.inReset = false → Runs .rstNFall s fun t => kept t ∧ t.pads = { s.pads with rstn := false } ∧
      t.fld F.CLK_RST.CAUSE [] = if s.bit F.PWR_TSTAT.TRIP [] then 3 else 2) ∧
    (s.pads.rstn = true → s.inReset = true → Runs .rstNFall s fun t => t = { s with pads := { s.pads with rstn := false } }) ∧
    (s.pads.rstn = false → exec .rstNFall s = .next s) ∧
    (∀ (pos : BitVec 6) (hot : Option (Fin 64)),
      (s.pads.rstn = true → exec (.rstNRise pos hot) s = .next s) ∧
      (s.pads.rstn = false → (hot = none ∨ s.pads.vin = false ∨ s.pads.pwrgd = false) → Runs (.rstNRise pos hot) s fun t =>
        t.fld F.PWR_TSTAT.TRIP [] = 0 ∧ RegsBut [regAddr .PWR_TSTAT []] s t ∧ t = { s with
          regs := t.regs, pads := { s.pads with rstn := true, thermtrip := false, straps := { s.pads.straps with pos := pos } } }) ∧
      (∀ n, hot = some n → s.pads.rstn = false → s.pads.vin = true → s.pads.pwrgd = true → Runs (.rstNRise pos hot) s fun t =>
        t.fld F.PWR_TSTAT.TRIP [] = 1 ∧ t.fld F.PWR_TSTAT.TCAUSE [] = 1 ∧ t.fld F.PWR_TSTAT.TSRC [] = n.val ∧
        t.pads = { s.pads with rstn := true, thermtrip := true, straps := { s.pads.straps with pos := pos } } ∧
        t.coreOn = false ∧ t.inReset = false ∧ ∀ l < 8, t.lstate l = 0))

/-- Each TAP instruction selects its register, shifts out what was captured and updates what was shifted in. TRST_N
selects IDCODE. While VIN and PWRGD are up: IDCODE shifts out version 1, the PCODE, the maker code and 1; BYPASS,
CLAMP and HIGHZ shift through one bit; SAMPLE/PRELOAD and EXTEST capture the pins and keep what shifts in; SATEST,
SCANRD and DBGREG act as BYPASS while TAPEN is 0. With TAPEN set, SATEST sets SATEST of DBG_CTL while DONEMASK is 0
and changes no register else (the bit it shifts out is a free value, log 9); SCANRD shifts out the outcome of the
access before and captures its own: BUSY in reset, UNMAPPED for a line that is not there, DENIED in a partition, else
the line; DBGREG does the same for a register access with the rights of the TAP. While a supply is down no instruction
does anything. -/
def Obligations.TapInstructionsScanTheirRegisters : Prop :=
  ∀ s : State, (Runs .trstNAssert s fun t => t = { s with tap := Tap.empty } ∧ t.tap.ir = 0x01) ∧
    ((s.pads.vin && s.pads.pwrgd) = false → ∀ (b : Bool) (p q : BitVec 12) (x : BitVec 288) (y : BitVec 128),
      ∀ i ∈ [Instr.bypass b, .idcode, .samplePreload p q, .extest p q, .clamp b, .highz b, .satest b, .scanrd x, .dbgreg y],
        exec i s = .next s) ∧
    (s.pads.vin = true → s.pads.pwrgd = true →
      (∀ tdi, Runs (.bypass tdi) s fun t =>
        t = { s with out := .tdo 1 0 :: s.out, tap := { s.tap with ir := 0xFF, mode := 0, byp := tdi } }) ∧
      (Runs .idcode s fun t => t = { s with
        out := .tdo 32 (1 * 2 ^ 28 + s.fuses.grade.toNat * 2 ^ 12 + s.fuses.tapId.toNat * 2 + 1) :: s.out
        tap := { s.tap with ir := 0x01, mode := 0 } }) ∧
      (∀ pins tdi, Runs (.samplePreload pins tdi) s fun t => t = { s with
        out := .tdo 12 pins.toNat :: s.out, tap := { s.tap with ir := 0x02, mode := 0, bound := tdi.toNat } }) ∧
      (∀ pins tdi, Runs (.extest pins tdi) s fun t => t = { s with
        out := .tdo 12 pins.toNat :: s.out, tap := { s.tap with ir := 0x03, mode := 1, bound := tdi.toNat } }) ∧
      (∀ tdi, Runs (.clamp tdi) s fun t =>
        t = { s with out := .tdo 1 0 :: s.out, tap := { s.tap with ir := 0x04, mode := 1, byp := tdi } }) ∧
      (∀ tdi, Runs (.highz tdi) s fun t =>
        t = { s with out := .tdo 1 0 :: s.out, tap := { s.tap with ir := 0x05, mode := 2, byp := tdi } }) ∧
      (s.fld F.DBG_CTL.TAPEN [] = 0 →
        (∀ tdi, Runs (.satest tdi) s fun t =>
          t = { s with out := .tdo 1 0 :: s.out, tap := { s.tap with ir := 0x20, mode := 0, byp := tdi } }) ∧
        (∀ tdi : BitVec 288, Runs (.scanrd tdi) s fun t => t = { s with
          out := .tdo 288 (tdi.toNat * 2 % 2 ^ 288) :: s.out, tap := { s.tap with ir := 0x21, mode := 0, byp := tdi.getLsbD 287 } }) ∧
        (∀ tdi : BitVec 128, Runs (.dbgreg tdi) s fun t => t = { s with
          out := .tdo 128 (tdi.toNat * 2 % 2 ^ 128) :: s.out, tap := { s.tap with ir := 0x22, mode := 0, byp := tdi.getLsbD 127 } })) ∧
      (s.fld F.DBG_CTL.TAPEN [] = 1 →
        (∀ tdi, Runs (.satest tdi) s fun t => (s.bring.doneMask = 0 → t.fld F.DBG_CTL.SATEST [] = 1) ∧
          (s.bring.doneMask ≠ 0 → t.regs = s.regs) ∧ t.tap.ir = 0x20 ∧
          (∃ b : BitVec 1, t.out = .tdo 1 b.toNat :: s.out) ∧ RegsBut [regAddr .DBG_CTL []] s t) ∧
        (∀ tdi : BitVec 288, Runs (.scanrd tdi) s fun t =>
          let store := bits tdi.toNat 285 3
          let c := bits tdi.toNat 274 11
          let line := bits tdi.toNat 261 13
          let outcome := if s.inReset then putBits (bits tdi.toNat 261 27 * 2 ^ 261) 257 4 stBusy
            else bits tdi.toNat 261 27 * 2 ^ 261 + (
              if 4 < store ∨ s.enabled c = false ∨ storeSize store ≤ 32 * line then stUnmapped * 2 ^ 257
              else if s.inPart c then stDenied * 2 ^ 257
              else leNat (((s.clu c).store store).bytes (32 * line) 32))
          t = { s with out := .tdo 288 s.tap.scan :: s.out, tap := { s.tap with ir := 0x21, mode := 0, scan := outcome } }) ∧
        (∀ tdi : BitVec 128, s.inReset = true → Runs (.dbgreg tdi) s fun t =>
          t = { s with out := .tdo 128 s.tap.dbg :: s.out, tap := { s.tap with
            ir := 0x22, mode := 0, dbg := bits tdi.toNat 64 64 * 2 ^ 64 + b2n (tdi.getLsbD 63) * 2 ^ 63 + stBusy * 2 ^ 59 + bits tdi.toNat 0 26 } }) ∧
        (∀ tdi : BitVec 128, s.inReset = false → tdi.getLsbD 63 = false → s.accessStatus (bits tdi.toNat 0 26) = 0 →
          Runs (.dbgreg tdi) s fun t => t.out = .tdo 128 s.tap.dbg :: s.out ∧ t.tap.ir = 0x22 ∧
            t.tap.dbg = t.lastData.toNat * 2 ^ 64 + t.lastStat * 2 ^ 59 + bits tdi.toNat 0 26 ∧ t.lastStat = 0 ∧ t.regs = s.regs) ∧
        (∀ tdi : BitVec 128, s.inReset = false → tdi.getLsbD 63 = true → Runs (.dbgreg tdi) s fun t => t.tap.ir = 0x22 ∧
            t.tap.dbg = bits tdi.toNat 64 64 * 2 ^ 64 + 2 ^ 63 + t.lastStat * 2 ^ 59 + bits tdi.toNat 0 26)))

/-- What the I3C target answers to each common command code, and what it keeps. Out of reset and with an address
assigned, the target takes and returns its limits, identification and characteristics, accepts ENEC, DISEC and RSTACT
with 0x00 or 0x01 with no effect and answers any other code with NACK; ENTDAA gives an unaddressed target its address
and RSTDAA takes it away; a target without one answers nothing else, and one that has one no ENTDAA; GETSTATUS answers
two bytes that the spec does not state (free, log 10). A private read returns the response to the last request,
limited to MRL. -/
def Obligations.I3cCommandsAnswer : Prop :=
  ∀ s : State, s.inReset = false →
    let answers := fun (i : I3c) (ack : Bool) (d : Bytes) => { s with i3c := i, out := .i3c ack d :: s.out }
    (∀ (a : BitVec 7), s.i3c.addr.isSome = true → Runs (.entdaa a) s fun t => t = answers s.i3c false []) ∧
    (s.i3c.addr = none → ∀ (n m : BitVec 16) (e f g : Byte),
      ∀ i ∈ [Instr.setmwl n, .getmwl, .setmrl m, .getmrl, .getpid, .getbcr, .getdcr, .getstatus, .enec e, .disec f, .rstact g,
        .i3cPrivateRead], Runs i s fun t => t = answers s.i3c false []) ∧
    (∀ a : BitVec 7, s.i3c.addr = none → Runs (.entdaa a) s fun t =>
      t = answers { s.i3c with addr := some a.toNat } true (beBytes 6 s.pid ++ [0, 0])) ∧
    (Runs .rstdaa s fun t => t = answers { s.i3c with addr := none } true []) ∧
    (∀ c, Runs (.i3cOtherCcc c) s fun t => t = answers s.i3c false []) ∧
    (s.i3c.addr.isSome = true →
      (∀ n : BitVec 16, Runs (.setmwl n) s fun t => t = answers { s.i3c with mwl := n.toNat } true []) ∧
      (Runs .getmwl s fun t => t = answers s.i3c true (beBytes 2 s.i3c.mwl)) ∧
      (∀ n : BitVec 16, Runs (.setmrl n) s fun t => t = answers { s.i3c with mrl := n.toNat } true []) ∧
      (Runs .getmrl s fun t => t = answers s.i3c true (beBytes 2 s.i3c.mrl)) ∧
      (Runs .getpid s fun t => t = answers s.i3c true (beBytes 6 (bits s.fuses.mfid.toNat 0 15 * 2 ^ 33 +
        s.fuses.grade.toNat * 2 ^ 16 + s.pads.straps.pos.toNat * 2 ^ 6))) ∧
      (Runs .getbcr s fun t => t = answers s.i3c true [0]) ∧
      (Runs .getdcr s fun t => t = answers s.i3c true [0]) ∧
      (Runs .getstatus s fun t => ∃ d : Bytes, d.length = 2 ∧ t = { answers s.i3c true d with free := s.free + 1 }) ∧
      (∀ e, Runs (.enec e) s fun t => t = answers s.i3c true []) ∧
      (∀ e, Runs (.disec e) s fun t => t = answers s.i3c true []) ∧
      (∀ d : Byte, Runs (.rstact d) s fun t => t = answers s.i3c (decide (d.toNat ≤ 1)) []) ∧
      (∀ b, s.i3c.resp = some b → Runs .i3cPrivateRead s fun t => t = answers s.i3c true (b.take s.i3c.mrl)) ∧
      (s.i3c.resp = none → Runs .i3cPrivateRead s fun t => t = answers s.i3c false []))

/-- What each control stroke does when it is carried out, and what it leaves. Where the present stroke of a cluster is
the control stroke and no ECC error stands in the cluster: NOP, IDLE and TIDEWAIT only are carried out; LOOP opens its
level; SETMASK, TBIND load their register; RSTWALK zeroes the positions it selects; ADDBASE adds to OFF, modulo 2^21,
in the cores of its mask; LDWALK and LDBASE load what their image holds; every other register, and every part of the
die but the cluster's stroke, is as before. Where that stroke is not the present one, or has been carried out, the
command leaves the state as it is. -/
def Obligations.ControlStrokesTakeEffect : Prop :=
  ∀ (s : State) (c : Nat) (e : Ent), s.coreOn = true → (s.clu c).ecc = [] →
    (s.ctlEnt c 0x00 = some e → Runs (.nop c) s (CarriedOut c 0 [] s)) ∧
    (s.ctlEnt c 0x01 = some e → Runs (.idle c) s (CarriedOut c 0 [] s)) ∧
    (s.ctlEnt c 0x09 = some e → Runs (.tidewait c) s (CarriedOut c 0 [] s)) ∧
    (s.ctlEnt c 0x02 = some e → Runs (.loop c) s fun t =>
      CarriedOut c 0 ((List.range 4).map fun k => regAddr .CLU_PLOOP [c, k]) s t ∧
      t.loopsOf c = listSet (s.loopsOf c) (bits e.word 246 2)
        ⟨true, (e.addr + 1) % 1024, (e.addr + 1 + bits e.word 220 10) % 1024, bits e.word 230 16, 0⟩) ∧
    (s.ctlEnt c 0x03 = some e → Runs (.setmask c) s fun t =>
      CarriedOut c 0 [regAddr .CLU_PMASK [c, bits e.word 245 3]] s t ∧
      t.word .CLU_PMASK [c, bits e.word 245 3] = bits e.word 0 64) ∧
    (s.ctlEnt c 0x08 = some e → Runs (.tbind c) s fun t =>
      CarriedOut c 0 [regAddr .CLU_PTBIND [c, bits e.word 245 3]] s t ∧
      t.fld F.CLU_PTBIND.VAL [c, bits e.word 245 3] = 1 ∧ t.fld F.CLU_PTBIND.DIR [c, bits e.word 245 3] = bits e.word 244 1 ∧
      t.fld F.CLU_PTBIND.TALLY [c, bits e.word 245 3] = bits e.word 228 16) ∧
    (s.ctlEnt c 0x05 = some e → Runs (.rstwalk c) s fun t =>
      let sel := (List.range 28).filter (bitAt (bits e.word 0 28))
      CarriedOut c 0 (sel.map fun w => regAddr .CLU_WPOS [c, w]) s t ∧ ∀ w ∈ sel, t.word .CLU_WPOS [c, w] = 0) ∧
    (s.ctlEnt c 0x07 = some e → Runs (.addbase c) s fun t =>
      let r := baseReg (bits e.word 245 3)
      let cores := coresOf (s.maskReg c (bits e.word 242 3))
      CarriedOut c 0 (cores.map fun n => regAddr r [c, n]) s t ∧ ∀ n ∈ cores,
        bits (t.word r [c, n]) 0 21 = (bits (s.word r [c, n]) 0 21 + bits e.word 221 21) % 2 ^ 21 ∧
        bits (t.word r [c, n]) 40 24 = bits (s.word r [c, n]) 40 24) ∧
    (s.ctlEnt c 0x04 = some e → Runs (.ldwalk c) s fun t =>
      let w := bits e.word 243 5
      let img := ((s.clu c).store (s.berthStore c (bits e.word 236 7))).bytes
        (s.berthBase c (bits e.word 236 7) + bits e.word 216 20) 64
      CarriedOut c 0 ((walkRegs ++ [RegId.CLU_WPOS]).map fun r => regAddr r [c, w]) s t ∧ t.word .CLU_WPOS [c, w] = 0 ∧
      ∀ p ∈ walkRegs.zip (List.range 7), t.word p.1 [c, w] = definedBits p.1 (leAt img (8 * p.2) 8)) ∧
    (s.ctlEnt c 0x06 = some e → Runs (.ldbase c) s fun t =>
      let st := (s.clu c).store (s.berthStore c (bits e.word 241 7))
      let lo := s.berthBase c (bits e.word 241 7) + bits e.word 221 20
      CarriedOut c 0 ((List.range 64).flatMap fun n => (List.range 8).map fun k => regAddr (baseReg k) [c, n]) s t ∧
      ∀ n < 64, ∀ k < 8, t.word (baseReg k) [c, n] = definedBits (baseReg k) (leNat (st.bytes (lo + 64 * n + 8 * k) 8))) ∧
    ∀ p ∈ [(Instr.nop c, 0x00), (.idle c, 0x01), (.loop c, 0x02), (.setmask c, 0x03), (.ldwalk c, 0x04), (.rstwalk c, 0x05),
      (.ldbase c, 0x06), (.addbase c, 0x07), (.tbind c, 0x08), (.tidewait c, 0x09)],
      s.ctlEnt c p.2 = none → exec p.1 s = .next s

/-- TIDE, SELFENQ, LEG and END: what they leave in the pilot, the partition and the shadow. TIDE puts the pilot in
state TIDE and its expected-count list stands to be copied; SELFENQ adds its image to the partition's list of images
to copy; LEG snapshots every flag word, opens the shadow with no dirty granule, takes LEGNO, moves CPTR of both
gateways to RPTR and records where a replay resumes; END puts the pilot in state ENDED and its feeders fetch nothing
more. Where that stroke is not the present one, or has been carried out, the command leaves the state as it is. -/
def Obligations.TideSelfenqLegAndEndStrokes : Prop :=
  ∀ (s : State) (c : Nat) (e : Ent), s.coreOn = true →
    (s.ctlEnt c 0x0A = some e → Runs (.tide c) s fun t =>
      CarriedOut c 0 [regAddr .CLU_PSTAT [c]] s { t with cl := (s.doneField c 0).cl } ∧ t.pilot c = 4 ∧
      (t.clu c).tideNow = true ∧ (t.clu c).tideList = some (bits e.word 241 7, bits e.word 221 20, bits e.word 213 8)) ∧
    (s.ctlEnt c 0x0B = some e → Runs (.selfenq c) s fun t =>
      CarriedOut c 0 [] s { t with pt := s.pt } ∧
      (e.cyc, s.period, c, bits e.word 241 7, bits e.word 221 20) ∈ (t.part (s.partOf c)).selfq ∧
      (t.part (s.partOf c)).selfq.length = (s.part (s.partOf c)).selfq.length + 1) ∧
    (s.ctlEnt c 0x0C = some e → Runs (.leg c) s fun t =>
      (∀ n < 64, t.word .CLU_CFSNAP [c, n] = s.word .CLU_CFLAG [c, n]) ∧ t.fld F.CLU_STSTAT.SHA [c] = 1 ∧
      t.fld F.CLU_PSHDW.DIRTY [c] = 0 ∧ t.fld F.CLU_PSHDW.LEGNO [c] = bits e.word 232 16 ∧ (t.clu c).dirty = [] ∧
      (∀ g < 2, t.fld F.CHN_GWPTR.CPTR [c, g] = s.fld F.CHN_GWPTR.RPTR [c, g]) ∧ (t.clu c).legNow = some (bits e.word 232 16) ∧
      ∃ r l k, (t.clu c).snap = some ⟨bits e.word 232 16, e.cyc, e.addr, r, l, k⟩) ∧
    (s.ctlEnt c 0x3F = some e → Runs (.endStroke c) s fun t =>
      CarriedOut c 0 [regAddr .CLU_PSTAT [c]] s { t with cl := (s.doneField c 0).cl } ∧ t.pilot c = 5 ∧ (t.clu c).fetches = []) ∧
    ∀ p ∈ [(Instr.tide c, 0x0A), (.selfenq c, 0x0B), (.leg c, 0x0C), (.endStroke c, 0x3F)],
      s.ctlEnt c p.2 = none → exec p.1 s = .next s

/-- Every arithmetic post operation schedules its correctly rounded results with the latency of its class. Where the
present stroke of a cluster carries the operation in its post field and no ECC error stands in the cluster, every
result of every core of the mask, computed exactly from the sources and rounded once into the target format, is on its
way to its element of the result walk with the number of results and the latency that the table of post operations
gives: convert 16 at 3; add, subtract, multiply and fma 16 at 4, or 4 at 6 in FP64; divide and sqrt 2 at 12, or 1 at
24; exp and log 4 at 10, or 1 at 18 (in FP64 one of the values within 1 ulp, a free choice, log 11). Nothing else of
the die changes, and where the present stroke does not carry the operation, or has carried it out, nothing at all. -/
def Obligations.PostArithmeticLands : Prop :=
  ∀ c : Nat,
    let n := fun (narrow wide : Nat) (f : Fmt) => if f = .fp64 then wide else narrow
    let k := fun (x : Nat) (_ : Fmt) => x
    PostLands (.convert c) c 0x01 (k 16) (k 3) (fun ctx pt i x _ _ => ctx.conv pt i x) ∧
    PostLands (.add c) c 0x08 (n 16 4) (n 4 6) (fun ctx pt i x y _ => roundVF ctx pt i (addVal (ctx.rm == 3) x y)) ∧
    PostLands (.subtract c) c 0x09 (n 16 4) (n 4 6)
      (fun ctx pt i x y _ => roundVF ctx pt i (addVal (ctx.rm == 3) x (y.negIf true))) ∧
    PostLands (.multiply c) c 0x0A (n 16 4) (n 4 6) (fun ctx pt i x y _ => roundVF ctx pt i (mulVal x y)) ∧
    PostLands (.fma c) c 0x0B (n 16 4) (n 4 6)
      (fun ctx pt i x y z => roundVF ctx pt i (fmaVal (ctx.rm == 3) false false x y z)) ∧
    PostLands (.divide c) c 0x20 (n 2 1) (n 12 24) (fun ctx pt i x y _ => roundVF ctx pt i (divVal x y)) ∧
    PostLands (.sqrt c) c 0x21 (n 2 1) (n 12 24) (fun ctx pt i x _ _ => roundVF ctx pt i (sqrtVal x)) ∧
    PostLands (.exp c) c 0x22 (n 4 1) (n 10 18) (near expVal Config.exp64) ∧
    PostLands (.log c) c 0x23 (n 4 1) (n 10 18) (near logVal Config.log64)

/-- Comparisons, selections and activations schedule their results with the latency of their class. As for the
arithmetic operations: a comparison writes 1 or 0 for each of 16 elements at 2 schedule cycles; minimum, maximum,
minimumNumber, maximumNumber and ReLU select one of 16 at 2; GELU, SiLU, sigmoid and tanh give 4 results at 14 (one of
the values within 2 ulp, a free choice, log 11). Nothing else of the die changes, and where the present stroke does
not carry the operation, or has carried it out, nothing at all. -/
def Obligations.PostComparisonsSelectionsAndActivationsLand : Prop :=
  ∀ c : Nat,
    let k := fun (x : Nat) (_ : Fmt) => x
    let cmp := fun (p : Pred) (_ : RCtx) (_ : Fmt) (_ : Nat) (x y _z : Val) =>
      ((if (compareVal p x y).1 then 1 else 0, (compareVal p x y).2) : Nat × Nat)
    let sel := fun (m : Sel) (ctx : RCtx) (pt : Fmt) (i : Nat) (x y _z : Val) => roundVF ctx pt i (selectVal m x y)
    let act := fun (a : Act) (ctx : RCtx) (pt : Fmt) (i : Nat) (x _y _z : Val) => actResult a pt (ctx.rnd i) ctx.om x
    PostLands (.compareEq c) c 0x10 (k 16) (k 2) (cmp .eq) ∧ PostLands (.compareNe c) c 0x11 (k 16) (k 2) (cmp .ne) ∧
    PostLands (.compareLt c) c 0x12 (k 16) (k 2) (cmp .lt) ∧ PostLands (.compareLe c) c 0x13 (k 16) (k 2) (cmp .le) ∧
    PostLands (.compareGt c) c 0x14 (k 16) (k 2) (cmp .gt) ∧ PostLands (.compareGe c) c 0x15 (k 16) (k 2) (cmp .ge) ∧
    PostLands (.compareUnord c) c 0x16 (k 16) (k 2) (cmp .unord) ∧
    PostLands (.minimum c) c 0x18 (k 16) (k 2) (sel .minimum) ∧ PostLands (.maximum c) c 0x19 (k 16) (k 2) (sel .maximum) ∧
    PostLands (.minimumNumber c) c 0x1A (k 16) (k 2) (sel .minimumNumber) ∧
    PostLands (.maximumNumber c) c 0x1B (k 16) (k 2) (sel .maximumNumber) ∧
    PostLands (.relu c) c 0x28 (k 16) (k 2) (fun ctx pt i x _ _ => roundVF ctx pt i (selectVal .maximum x (.fin false 0 0))) ∧
    PostLands (.gelu c) c 0x29 (k 4) (k 14) (act .gelu) ∧ PostLands (.silu c) c 0x2A (k 4) (k 14) (act .silu) ∧
    PostLands (.sigmoid c) c 0x2B (k 4) (k 14) (act .sigmoid) ∧ PostLands (.tanh c) c 0x2C (k 4) (k 14) (act .tanh)

/-- Reductions, MX encode and flag capture schedule what they write. Where the present stroke carries the operation
and no ECC error stands in the cluster: a reduction schedules one result of 16 values (a sum in the fixed FP32 tree at
8 schedule cycles, a maximum or minimum at 4); MX encode schedules the 32 elements of a block, and its scale byte
where the result walk names a scale berth, at 6; flag capture schedules the capture of the flag word of every core of
the mask at 1. Nothing else of the die changes, and where the present stroke does not carry the operation, or has
carried it out, nothing at all. -/
def Obligations.PostReductionsEncodeAndCaptureLand : Prop :=
  ∀ (s : State) (c : Nat) (e : Ent), s.coreOn = true → (s.clu c).ecc = [] →
    let q := postField e.word
    let pt := fmtD (bits q 30 4)
    let ctx := s.rctx c e (bits q 27 3) (bitAt q 26)
    let wk := s.walkCfg c (24 + bits q 18 2)
    let at_ := fun (core : Nat) => (wk.point (s.word .CLU_BPD [c, core]) 0 (e.posOf (24 + bits q 18 2))).1
    let src := fun (core n : Nat) => (List.range n).map fun i => postSource s c core e 1 i n
    let put := fun (core lat j v : Nat) => Pending.mk (e.cyc + lat) e.cyc (.put (s.berthStore c wk.berth)
      (s.elemPos c wk.berth pt.width (at_ core) + j * pt.width) pt.width v)
    let one := fun (i : Instr) (lat : Nat) (f : Nat → Nat) => Runs i s fun t => OnlyCluster c s t ∧
      ∀ core ∈ coresOf e.mask, put core lat 0 (f core) ∈ (t.clu c).pend
    (s.postEnt c 0x30 = some e → one (.reduceSum c) 8 fun core =>
      (reduceSum pt (ctx.rnd (at_ core).toNat) ctx.om
        ((src core 16).map fun v => (toFp32 (ctx.rnd (at_ core).toNat) ctx.om v).1)).1) ∧
    (s.postEnt c 0x31 = some e → one (.reduceMax c) 4 fun core =>
      (roundVF ctx pt (at_ core).toNat (reduceSel .maximum (src core 16))).1) ∧
    (s.postEnt c 0x32 = some e → one (.reduceMin c) 4 fun core =>
      (roundVF ctx pt (at_ core).toNat (reduceSel .minimum (src core 16))).1) ∧
    (s.postEnt c 0x02 = some e → Runs (.mxEncode c) s fun t => OnlyCluster c s t ∧ ∀ core ∈ coresOf e.mask,
      let b := mxEncodeBlock pt ctx (at_ core).toNat (src core 32)
      (∀ j < 32, put core 6 j (listGet 0 b.1 j) ∈ (t.clu c).pend) ∧
      (wk.sen = true → ⟨e.cyc + 6, e.cyc, .put (s.berthStore c wk.sberth) (s.elemPos c wk.sberth 8 (at_ core / 32)) 8 b.2.1⟩
        ∈ (t.clu c).pend)) ∧
    (s.postEnt c 0x3F = some e → Runs (.flagCapture c) s fun t => OnlyCluster c s t ∧ ∀ core ∈ coresOf e.mask,
      ⟨e.cyc + 1, e.cyc, .capture core (s.berthStore c wk.berth) (s.elemPos c wk.berth 64 (at_ core) / 8)⟩ ∈ (t.clu c).pend) ∧
    ∀ p ∈ [(Instr.reduceSum c, 0x30), (.reduceMax c, 0x31), (.reduceMin c, 0x32), (.mxEncode c, 0x02), (.flagCapture c, 0x3F)],
      s.postEnt c p.2 = none → exec p.1 s = .next s

/-- DRAIN, SPILL and FILL: what leaves a cell, what it becomes, and when it reaches the store. Where the present
stroke carries the operation in a row: DRAIN to a target that is not MX rounds the named cell of every lane of every
core of the mask once, schedules the result 9 schedule cycles ahead, and leaves the cell idle with its window; to an
MX target both rows' drains make one block of the 32 cells of an even and an odd core, scheduled 11 ahead with its
scale byte where the drain walk names a scale berth, and the row carried out second adds nothing; where its predicate
does not hold it drains nothing. SPILL schedules the 24-byte image of the cell 6 ahead and leaves every cell as it is;
FILL, with no ECC error in the cluster, replaces the cell by the image read from the P-store (a zero image at a padded
position). No register changes, nor anything outside the cluster. A command whose operation the present stroke does
not carry in the row, or has carried out, leaves the state as it is. -/
def Obligations.LaneRowsDrainSpillAndFill : Prop :=
  ∀ (s : State) (c : Nat) (row : Row) (e : Ent), s.coreOn = true →
    let r := rowField e.word (rowNum row)
    let f := fmtD (bits r 53 4)
    let ctx := s.rctx c e (bits r 50 3) (bitAt r 49)
    let key := fun (core lane cell : Nat) => cellKey core (rowNum row) lane cell
    (s.rowEnt c (rowNum row) 2 = none → exec (.drain c row) s = .next s) ∧
    (s.rowEnt c (rowNum row) 2 = some e → rowDrains r e.first e.last = false →
      Runs (.drain c row) s fun t => OnlyCluster c s t ∧ (t.clu c).cells = (s.clu c).cells ∧ (t.clu c).pend = (s.clu c).pend) ∧
    (s.rowEnt c (rowNum row) 2 = some e → rowDrains r e.first e.last = true → f.isMx = false →
      Runs (.drain c row) s fun t => OnlyCluster c s t ∧ ∀ core ∈ coresOf e.mask, ∀ lane < 8,
        let w := rowNum row * 12 + 8 + bits r 40 2
        let a := ((s.walkCfg c w).point (s.word (baseReg (rowNum row * 3 + 2)) [c, core]) lane (e.posOf w)).1
        let k := key core lane (drainCell r e.idx0)
        (t.clu c).cell k = Cell.idle ((s.clu c).cell k).win ∧
        ⟨e.cyc + 9, e.cyc, .put (s.berthStore c (s.walkCfg c w).berth) (s.elemPos c (s.walkCfg c w).berth f.width a) f.width
          (((s.clu c).cell k).drain f (ctx.rnd a.toNat) ctx.om).1⟩ ∈ (t.clu c).pend) ∧
    (s.rowEnt c (rowNum row) 2 = some e → rowDrains r e.first e.last = true → f.isMx = true →
      Runs (.drain c row) s fun t => OnlyCluster c s t ∧
        (bitAt e.todo 1 = true ∧ bitAt e.todo 2 = true → ∀ core ∈ coresOf (evenMask e.mask),
          let r := rowField e.word 0
          let f := fmtD (bits r 53 4)
          let ctx := s.rctx c e (bits r 50 3) (bitAt r 49)
          let wk := s.walkCfg c (8 + bits r 40 2)
          let a := (wk.point (s.word (baseReg 2) [c, core]) 0 (e.posOf (8 + bits r 40 2))).1
          let keys := (List.range 32).map fun i => cellKey (core + i / 16) (i / 8 % 2) (i % 8) (drainCell r e.idx0)
          let b := mxEncodeBlock f ctx a.toNat (keys.map fun k => ((s.clu c).cell k).mxSource (ctx.rnd a.toNat))
          (∀ k ∈ keys, (t.clu c).cell k = Cell.idle ((s.clu c).cell k).win) ∧
          (∀ x ∈ b.1.zip (List.range b.1.length), ⟨e.cyc + 11, e.cyc, .put (s.berthStore c wk.berth)
            (s.elemPos c wk.berth f.width a + x.2 * f.width) f.width x.1⟩ ∈ (t.clu c).pend) ∧
          (wk.sen = true → ⟨e.cyc + 11, e.cyc, .put (s.berthStore c wk.sberth) (s.elemPos c wk.sberth 8 (a / 32)) 8 b.2.1⟩
            ∈ (t.clu c).pend)) ∧
        (bitAt e.todo 1 = false ∨ bitAt e.todo 2 = false →
          (t.clu c).cells = (s.clu c).cells ∧ (t.clu c).pend = (s.clu c).pend)) ∧
    (s.rowEnt c (rowNum row) 7 = none → exec (.spill c row) s = .next s ∧ exec (.fill c row) s = .next s) ∧
    (s.rowEnt c (rowNum row) 7 = some e → bitAt r 84 = false → exec (.fill c row) s = .next s ∧
      Runs (.spill c row) s fun t => OnlyCluster c s t ∧ (t.clu c).cells = (s.clu c).cells ∧
        ∀ core ∈ coresOf e.mask, ∀ lane < 8,
          let w := rowNum row * 12 + 8 + bits r 77 2
          let a := ((s.walkCfg c w).point (s.word (baseReg (rowNum row * 3 + 2)) [c, core]) lane (e.posOf w)).1
          ⟨e.cyc + 6, e.cyc, .put (s.berthStore c (s.walkCfg c w).berth) (s.elemPos c (s.walkCfg c w).berth 192 a) 192
            (leNat ((s.clu c).cell (key core lane (xferCell r e.idx0))).image)⟩ ∈ (t.clu c).pend) ∧
    (s.rowEnt c (rowNum row) 7 = some e → bitAt r 84 = true → exec (.spill c row) s = .next s ∧ ((s.clu c).ecc = [] →
      Runs (.fill c row) s fun t => OnlyCluster c s t ∧ ∀ core ∈ coresOf e.mask, ∀ lane < 8,
        let w := rowNum row * 12 + 8 + bits r 77 2
        let a := (s.walkCfg c w).point (s.word (baseReg (rowNum row * 3 + 2)) [c, core]) lane (e.posOf w)
        let b := (s.walkCfg c w).berth
        (t.clu c).cell (key core lane (xferCell r e.idx0)) = Cell.ofImage (if a.2 then List.replicate 24 0
          else ((s.clu c).store (s.berthStore c b)).bytes (s.elemPos c b 192 a.1 / 8) 24)))

/-- ACCUMULATE adds the products of each lane to the cell the stroke names, and leaves every other cell. Where the
present stroke accumulates in a row, the slices its B-advance needs are in their buffers, no ECC error stands in the
cluster and no transient error strikes: every lane of every core of the mask takes the products of the A elements and
its B slice into the named cell (started anew where the stroke says so), and with a twin into the cell 8 above it with
the twin's sign; with both operands MX the products enter the block accumulator, which enters the cells scaled, once,
at the block's end. No other cell changes, nothing outside the cluster, and no register, but for the trace registers
where a lane capture records it. ACCUMULATE AND DRAIN does the same to the state after its drain. A command whose
operation the present stroke does not carry, or whose slices are not there, leaves the state as it is. -/
def Obligations.AccumulateEntersTheNamedCells : Prop :=
  ∀ (s : State) (c : Nat) (row : Row) (us : List Upset) (e : Ent), s.coreOn = true →
    let rn := rowNum row
    let r := rowField e.word rn
    let b1 := predTrue (bits r 25 5) e.first e.last
    let b9 := predTrue (bits r 20 5) e.first e.last
    let takes := fun (u t : State) =>
      (∀ d, d ≠ c → t.clu d = s.clu d) ∧ RegsBut [regAddr .DBG_TRSTAT [], regAddr .DBG_CAP []] s t ∧
      (s.capturing c rn e.cyc = false → OnlyCluster c s t) ∧
      (∀ k, (∀ core ∈ coresOf e.mask, ∀ lane < 8, k ≠ cellKey core rn lane (accCell r e.idx0) ∧
        (bitAt r 47 = true → k ≠ cellKey core rn lane (accCell r e.idx0 + 8))) → (t.clu c).cell k = (u.clu c).cell k) ∧
      ∀ core ∈ coresOf e.mask, ∀ lane < 8,
      let fa := fmtD (bits r 81 4)
      let fb := fmtD (bits r 77 4)
      let w := rn * 12 + bits r 44 2
      let el := u.fetchElems c (u.walkCfg c w) ((u.walkCfg c w).point (u.word (baseReg (rn * 3)) [c, core]) 0 (e.posOf w)) fa
        (pairElems fa fb)
      let sl := ((SMap.get (BLane.mk none []) (u.clu c).blanes ((core * 2 + rn) * 8 + lane)).advance
        (predTrue (bits r 30 5) e.first e.last)).cur.getD ⟨[], 0x7F⟩
      let sc : Int := (if fa.isMx then ((match el with | x :: _ => x.2 | [] => 0x7F : Nat) : Int) - 127 else 0) +
        (if fb.isMx then (sl.scale : Int) - 127 else 0)
      let ps := laneProducts (el.map fun x => toIForm fa x.1 x.2) sl (pairElems fa fb) (if rowMx r then 0 else sc)
      let k := cellKey core rn lane (accCell r e.idx0)
      let k8 := cellKey core rn lane (accCell r e.idx0 + 8)
      let from_ := fun (k : Nat) => ((u.clu c).cell k).start (predTrue (bits r 35 5) e.first e.last) (BitVec.ofNat 10 (bits r 67 10))
      let b := ((if b1 then { Block.clear with opened := true } else (u.clu c).block k).add (fa.qlo + fb.qlo) ps).1
      (rowMx r = false → (t.clu c).cell k = ((from_ k).accumulate (bitAt r 48) ps).1 ∧
        (bitAt r 47 = true → (t.clu c).cell k8 = ((from_ k8).accumulate (bitAt r 48 ^^ bitAt r 46) ps).1)) ∧
      (rowMx r = true → b9 = true → (t.clu c).block k = Block.clear ∧
        (t.clu c).cell k = ((from_ k).accumulateBlock (bitAt r 48) b (fa.qlo + fb.qlo) sc).1 ∧
        (bitAt r 47 = true →
          (t.clu c).cell k8 = ((from_ k8).accumulateBlock (bitAt r 48 ^^ bitAt r 46) b (fa.qlo + fb.qlo) sc).1)) ∧
      (rowMx r = true → b9 = false → (t.clu c).block k = b ∧ (t.clu c).cell k = from_ k)
    (s.rowEnt c rn 1 = none → exec (.accumulate c row us) s = .next s) ∧
    (s.rowEnt c rn 3 = none → exec (.accumulateAndDrain c row us) s = .next s) ∧
    (s.rowEnt c rn 1 = some e → s.slicesReady c rn e = false → exec (.accumulate c row us) s = .next s) ∧
    (s.rowEnt c rn 3 = some e → s.slicesReady c rn e = false → exec (.accumulateAndDrain c row us) s = .next s) ∧
    ((s.clu c).ecc = [] → s.slicesReady c rn e = true →
      (s.rowEnt c rn 1 = some e → Runs (.accumulate c row []) s (takes s)) ∧
      (s.rowEnt c rn 3 = some e → Runs (.accumulateAndDrain c row []) s (takes (s.rowDrain c rn e))))

/-- The FMA units and the slot transfers schedule what they write, and change nothing else. Where the present stroke
carries the operation in a row: each enabled FMA unit of each core of the mask schedules a x b + c, rounded once, into
slot D 4 schedule cycles ahead in FP32 and 6 in FP64; SLOT LOAD (with no ECC error in the cluster) schedules the
element of its A walk into the slot 2 ahead, an FP32 value with a zero upper half; SLOT STORE schedules the slot into
the berth of its drain walk 3 ahead. No register changes, nor anything outside the cluster. A command whose operation
the present stroke does not carry in the row, or has carried out, leaves the state as it is. -/
def Obligations.FmaUnitsAndSlotTransfers : Prop :=
  ∀ (s : State) (c : Nat) (row : Row) (e : Ent), s.coreOn = true →
    let rn := rowNum row
    let r := rowField e.word rn
    (s.rowEnt c rn 4 = none → exec (.fp32Fma c row) s = .next s) ∧ (s.rowEnt c rn 5 = none → exec (.fp64Fma c row) s = .next s) ∧
    (s.rowEnt c rn 6 = none → exec (.slotLoad c row) s = .next s ∧ exec (.slotStore c row) s = .next s) ∧
    (s.rowEnt c rn 6 = some e → bitAt r 84 = true → exec (.slotLoad c row) s = .next s) ∧
    (s.rowEnt c rn 6 = some e → bitAt r 84 = false → exec (.slotStore c row) s = .next s) ∧
    let unit := fun (core lo lat : Nat) (f : Fmt) =>
      let rd := fun (slot : Nat) => decodeFmt f (((s.clu c).slot (slotKey core rn slot)).toNat % 2 ^ f.width)
      let ctx := s.rctx c e (bits r lo 3) false
      let v := fmaVal (bits r lo 3 == 3) (bitAt r (lo + 4)) (bitAt r (lo + 3)) (rd (bits r (lo + 20) 5)) (rd (bits r (lo + 15) 5))
        (rd (bits r (lo + 10) 5))
      Pending.mk (e.cyc + lat) e.cyc (.slot (slotKey core rn (bits r (lo + 5) 5))
        (BitVec.ofNat 64 (ctx.conv f (bits r (lo + 5) 5) v.1).1))
    (s.rowEnt c rn 4 = some e → Runs (.fp32Fma c row) s fun t => OnlyCluster c s t ∧ ∀ core ∈ coresOf e.mask,
      (bitAt r 84 = true → unit core 59 4 .fp32 ∈ (t.clu c).pend) ∧ (bitAt r 58 = true → unit core 33 4 .fp32 ∈ (t.clu c).pend)) ∧
    (s.rowEnt c rn 5 = some e → Runs (.fp64Fma c row) s fun t => OnlyCluster c s t ∧ ∀ core ∈ coresOf e.mask,
      unit core 59 6 .fp64 ∈ (t.clu c).pend) ∧
    (s.rowEnt c rn 6 = some e → bitAt r 84 = false → (s.clu c).ecc = [] → Runs (.slotLoad c row) s fun t =>
      OnlyCluster c s t ∧ ∀ core ∈ coresOf e.mask,
        let w := rn * 12 + bits r 75 2
        let pt := (s.walkCfg c w).point (s.word (baseReg (rn * 3)) [c, core]) 0 (e.posOf w)
        let el := s.fetchElems c (s.walkCfg c w) pt (if bitAt r 83 then .fp64 else .fp32) 1
        ⟨e.cyc + 2, e.cyc, .slot (slotKey core rn (xferSlot r e.idx0)) (BitVec.ofNat 64 (match el with | x :: _ => x.1 | [] => 0))⟩
          ∈ (t.clu c).pend) ∧
    (s.rowEnt c rn 6 = some e → bitAt r 84 = true → Runs (.slotStore c row) s fun t =>
      OnlyCluster c s t ∧ ∀ core ∈ coresOf e.mask,
        let w := rn * 12 + 8 + bits r 75 2
        let n := if bitAt r 83 then 64 else 32
        let a := ((s.walkCfg c w).point (s.word (baseReg (rn * 3 + 2)) [c, core]) 0 (e.posOf w)).1
        ⟨e.cyc + 3, e.cyc, .put (s.berthStore c (s.walkCfg c w).berth) (s.elemPos c (s.walkCfg c w).berth n a) n
          (((s.clu c).slot (slotKey core rn (xferSlot r e.idx0))).toNat % 2 ^ n)⟩ ∈ (t.clu c).pend)

/-- A cell at drain depends only on the multiset of products it received, not on their order or grouping. For two
schedules of accumulates (each ccy with its negation and its products) whose signed products are the same multiset,
neither carrying the count past 2^24, a cell that received the one holds the same accumulator, special state and
sticky bits as a cell that received the other; where the count does pass 2^24, WOF is set. -/
def Obligations.AccumulationDependsOnlyOnTheMultiset : Prop :=
  ∀ (c : Cell) (xs ys : List (Bool × List Prd)),
    let flat := fun (l : List (Bool × List Prd)) => l.flatMap fun q => q.2.map fun p => (q.1, p)
    let run := fun (l : List (Bool × List Prd)) => l.foldl (fun a q => (a.accumulate q.1 q.2).1) c
    (flat xs).Perm (flat ys) →
    (c.acnt.toNat + xs.length ≤ 2 ^ 24 → c.acnt.toNat + ys.length ≤ 2 ^ 24 →
      (run xs).acc = (run ys).acc ∧ (run xs).spc = (run ys).spc ∧ (run xs).sh = (run ys).sh ∧ (run xs).wof = (run ys).wof ∧
      (run xs).nz = (run ys).nz ∧ (run xs).ovp = (run ys).ovp ∧ (run xs).ovn = (run ys).ovn) ∧
    (2 ^ 24 < c.acnt.toNat + xs.length → (run xs).wof = true ∨ xs = [])

/-- The special state of a cell combines by a symmetric table, and a drain ignores the rest of the cell. R92: none
leaves the other state; equal infinities stay; +inf and -inf give NaN with NV; NaN absorbs; the table is symmetric. A
cell whose special state is not none still accumulates VAL, GRD and the sticky bits (a finite product changes the
accumulator as it would otherwise), and its drain depends on nothing but the special state. -/
def Obligations.SpecialStatesCombine : Prop :=
  (∀ x : Spc, Spc.meet .none x = (x, false) ∧ Spc.meet .nan x = (.nan, false)) ∧
  (∀ x y : Spc, x.meet y = y.meet x) ∧
  Spc.meet .pinf .pinf = (.pinf, false) ∧ Spc.meet .ninf .ninf = (.ninf, false) ∧ Spc.meet .pinf .ninf = (.nan, true) ∧
  (∀ (c : Cell) (x : Spc) (s : Bool) (mag : Nat) (e : Int),
    let d := { c with spc := x }
    (d.addMag s mag e).acc = (c.addMag s mag e).acc ∧ (d.addMag s mag e).sh = (c.addMag s mag e).sh ∧
    (d.addMag s mag e).nz = (c.addMag s mag e).nz ∧ (d.addMag s mag e).ovp = (c.addMag s mag e).ovp ∧
    (d.addMag s mag e).ovn = (c.addMag s mag e).ovn ∧ (d.addMag s mag e).spc = x) ∧
  (∀ (c d : Cell) (f : Fmt) (r : Rnd) (om : Bool), c.spc ≠ .none → d.spc = c.spc → c.drain f r om = d.drain f r om)

/-- A NaN converts to the canonical NaN of a target that has NaNs, and to +0 with NV in one that has none. R69, for
every floating-point target, rounding and overflow mode: a quiet NaN converts to the canonical NaN with no flag and a
signalling NaN to the same with NV where the target has NaNs; a NaN of any kind converts to +0 and sets NV in E3M2,
E2M3 and E2M1. -/
def Obligations.NaNsConvertAsTheTargetAllows : Prop :=
  ∀ (f : Fmt) (r : Rnd) (om sig : Bool),
    (f ∈ [Fmt.fp64, .fp32, .fp16, .bf16, .e5m2, .e4m3, .mxE5m2, .mxE4m3] →
      convertVal f r om (.nan sig) = (f.nanEnc, if sig then fNV else 0) ∧ ∃ q, decodeFmt f f.nanEnc = .nan q ∧ q = false) ∧
    (f ∈ [Fmt.mxE3m2, .mxE2m3, .mxE2m1] → convertVal f r om (.nan sig) = (0, fNV))

/-- A conversion keeps the sign of zero, and of a value that rounds to zero. R70: for every floating-point target,
rounding and overflow mode, a zero converts to a zero of its sign with no flag, and a non-zero value whose result is a
zero gives a zero of its own sign; any zero converts to 0 in an integer target; integer 0 converts to +0. -/
def Obligations.ZerosKeepTheirSign : Prop :=
  (∀ (f : Fmt) (r : Rnd) (om n : Bool) (m : Nat) (e : Int), f.isInt = false →
    (∃ x, decodeFmt f (convertVal f r om (.fin n 0 e)).1 = .fin n 0 x) ∧ (convertVal f r om (.fin n 0 e)).2 = 0 ∧
    (∀ k x, decodeFmt f (convertVal f r om (.fin n m e)).1 = .fin k 0 x → k = n)) ∧
  (∀ (f : Fmt) (r : Rnd) (om n : Bool) (e : Int), f.isInt = true → (convertVal f r om (.fin n 0 e)).1 = 0) ∧
  (∀ f : Fmt, f.isInt = true → ∃ x, decodeFmt f 0 = .fin false 0 x)

/-- A magnitude rounds to the neighbour its mode names, exactly when it is not a multiple of the grid. For every
magnitude and grid: the rounded multiple is within one grid step of the exact value and equal to it, with no inexact
mark, exactly where the value lies on the grid; RNE never leaves more than half a step, and takes the even multiple at
half a step; RTZ, RUP and RDN never pass the value in the direction they forbid (the sign being applied to the
magnitude). -/
def Obligations.RoundingGivesTheNeighbourOfTheMode : Prop :=
  ∀ (neg : Bool) (mag k : Nat) (ex : Int),
    let n := fun (r : Rnd) => (roundMag r neg mag ex (ex + (k + 1 : Nat))).1
    let inexact := fun (r : Rnd) => (roundMag r neg mag ex (ex + (k + 1 : Nat))).2
    let g := 2 ^ (k + 1)
    (∀ r : Rnd, mag < (n r + 1) * g ∧ n r * g < mag + g ∧ (inexact r = false ↔ n r * g = mag)) ∧
    (2 * (n .rne * g) ≤ 2 * mag + g ∧ 2 * mag ≤ 2 * (n .rne * g) + g ∧
      ((2 * (n .rne * g) = 2 * mag + g ∨ 2 * mag = 2 * (n .rne * g) + g) → n .rne % 2 = 0)) ∧
    n .rtz * g ≤ mag ∧
    (neg = false → mag ≤ n .rup * g ∧ n .rdn * g ≤ mag) ∧ (neg = true → mag ≤ n .rdn * g ∧ n .rup * g ≤ mag)

/-- The post unit and the FMA units add and multiply finite values exactly before their one rounding. For all finite
operands, the value that an addition hands to rounding is the exact sum, that of a multiplication the exact product,
and that of a fused multiply-add the exact a x b + c (as rational numbers), and none of them raises a flag before the
rounding. -/
def Obligations.SumsAndProductsAreExact : Prop :=
  let val := fun (v : Val) => (match v with
    | .fin n m e => some ((if n then -1 else 1) * (m : Rat) * (2 : Rat) ^ e)
    | _ => none : Option Rat)
  ∀ (rdn n n' n'' : Bool) (m m' m'' : Nat) (e e' e'' : Int),
    let x : Val := .fin n m e
    let y : Val := .fin n' m' e'
    let z : Val := .fin n'' m'' e''
    let q := fun (n : Bool) (m : Nat) (e : Int) => (if n then -1 else 1) * (m : Rat) * (2 : Rat) ^ e
    val (addVal rdn x y).1 = some (q n m e + q n' m' e') ∧ (addVal rdn x y).2 = 0 ∧
    val (mulVal x y).1 = some (q n m e * q n' m' e') ∧ (mulVal x y).2 = 0 ∧
    val (fmaVal rdn false false x y z).1 = some (q n m e * q n' m' e' + q n'' m'' e'') ∧ (fmaVal rdn false false x y z).2 = 0

/-- A read of one register word: the status its address gives, and the word it returns. Out of reset, for a requester
whose request reaches the die and may carry 8 bytes: an address of 2^26 or more, and an aligned one that no block or
enabled cluster covers, answers UNMAPPED and zero; one that is no multiple of 8 answers ALIGN; a mapped word that no
register stands at reads 0; a requester with no right at all is DENIED outside the ID block; any register reads as the
word it shows, with status OK (the elapsed time in FLT_PREC of a recovery that runs is a free value, log 12). Without
a legal number of bytes it answers ALIGN where that is no multiple of 8, else FORMAT. In reset, or where the request
does not reach the die, nothing happens. No read changes a register, but a denial, which changes DDENY and what an
event posted changes. -/
def Obligations.RegisterReadsAnswerByAddress : Prop :=
  ∀ (s : State) (q : Requester) (a : Nat),
    (s.inReset = true ∨ s.reaches q = false → ∀ n, exec (.rreg q a n) s = .next s) ∧
    (s.inReset = false → s.reaches q = true → ∀ n, (n % 8 ≠ 0 ∨ n = 0 ∨ s.dataLimit q < n) → Runs (.rreg q a n) s fun t =>
      t.lastStat = (if n % 8 = 0 then 10 else 4) ∧ t.regs = s.regs ∧ t.cl = s.cl) ∧
    (s.inReset = false → s.reaches q = true → 8 ≤ s.dataLimit q →
    let rd := fun (st v : Nat) => Runs (.rreg q a 8) s fun t =>
      t.lastStat = st ∧ t.lastData = BitVec.ofNat 64 v ∧ t.regs = s.regs ∧ t.cl = s.cl
    (2 ^ 26 ≤ a → rd 5 0) ∧
    (a < 2 ^ 26 → a % 8 ≠ 0 → rd 4 0) ∧
    (a < 2 ^ 26 → a % 8 = 0 → s.addrMapped a = false → rd 5 0) ∧
    (a < 2 ^ 26 → a % 8 = 0 → s.addrMapped a = true → 0x00100000 ≤ a → (s.rightsOf q).any = false →
      Runs (.rreg q a 8) s fun t => t.lastStat = 1 ∧ t.lastData = 0 ∧ RegsBut [regAddr .MGT_CNT [], regAddr .FE_EVSTAT []] s t) ∧
    (a < 2 ^ 26 → a % 8 = 0 → s.addrMapped a = true → (a < 0x00100000 ∨ (s.rightsOf q).any = true) →
      (regFind a = none → rd 0 0) ∧
      (∀ r idx, regFind a = some (r, idx) → r ≠ .FLT_PREC → rd 0 (s.readWord r idx)) ∧
      (∀ idx, regFind a = some (.FLT_PREC, idx) → Runs (.rreg q a 8) s fun t => t.lastStat = 0 ∧ t.regs = s.regs ∧
        ∃ x : BitVec 32, t.lastData = BitVec.ofNat 64 (if bits (s.word .FLT_PREC idx) 61 3 = 0 then s.word .FLT_PREC idx
          else putBits (s.word .FLT_PREC idx) 0 32 x.toNat))))

/-- A register write without a rule of its own changes exactly the writable fields of its register. For every register
to whose writes the spec gives no rule of their own, written by firmware out of reset: an RW field takes the written
value, an RWS field takes it unless the configuration is sealed, a W1C field clears the bits written 1, and every
other field, and every other register, stays; the status is SEALED where an RWS field would have changed after the
seal, else OK. A write of the berth table by anyone is DENIED, and changes no register but DDENY and what an event
posted changes. A write whose data is no multiple of 8 bytes, or of none or too many, changes no register and is
answered ALIGN or FORMAT; in reset, or where the request does not reach the die, nothing happens. -/
def Obligations.RegisterWritesGoFieldByField : Prop :=
  (∀ (s : State) (r : RegId) (idx : List Nat) (v : W64), s.inReset = false → r ∉ ownRuleRegs →
    regFind (regAddr r idx) = some (r, idx) → s.accessStatus (regAddr r idx) = 0 →
    Runs (.wreg .fw (regAddr r idx) (leBytes 8 v.toNat)) s fun t => RegsBut [regAddr r idx] s t ∧
      (∀ f ∈ regFields r, t.fld f idx = match f.acc with
        | .rw => bits v.toNat f.lo f.w
        | .rws => if s.sealed then s.fld f idx else bits v.toNat f.lo f.w
        | .w1c => Nat.xor (s.fld f idx) (Nat.land (s.fld f idx) (bits v.toNat f.lo f.w))
        | _ => s.fld f idx) ∧
      (t.lastStat = if s.sealed && (regFields r).any (fun f => f.acc == .rws && bits v.toNat f.lo f.w != s.fld f idx)
        then 6 else 0)) ∧
  (∀ (s : State) (q : Requester) (idx : List Nat) (v : W64), s.inReset = false → s.reaches q = true → 8 ≤ s.dataLimit q →
    regFind (regAddr .CLU_BERTH idx) = some (.CLU_BERTH, idx) → s.accessStatus (regAddr .CLU_BERTH idx) = 0 →
    Runs (.wreg q (regAddr .CLU_BERTH idx) (leBytes 8 v.toNat)) s fun t =>
      t.lastStat = 1 ∧ RegsBut [regAddr .MGT_CNT [], regAddr .FE_EVSTAT []] s t) ∧
  (∀ (s : State) (q : Requester) (a : Nat) (data : Bytes),
    (s.inReset = true ∨ s.reaches q = false → exec (.wreg q a data) s = .next s) ∧
    (s.inReset = false → s.reaches q = true → data.length % 8 ≠ 0 ∨ data = [] ∨ s.dataLimit q < data.length →
      Runs (.wreg q a data) s fun t => t.lastStat = (if data.length % 8 = 0 then 10 else 4) ∧ t.regs = s.regs ∧ t.cl = s.cl))

/-- ODRD and ODDESC served: the status in its order, and the segment or descriptor returned. For a requester whose
request reaches the die (the test access port makes no dictionary access, log 13): while the MP sheds, a request is
BUSY but for reads of OD 0x4200, and so is any at a full mailbox; one that finds no firmware running waits, but for a
read of the ring log over I3C, which is answered. While firmware runs, with room and no shedding: an index or subindex
that does not exist is answered NOENT, one the requester may not read DENIED, any other value from OFFSET on, up to
LEN and the most data a response carries, with MORE in bit 15 of AUX where bytes remain; ODDESC answers the 16-byte
descriptor: type, access, the rights to read and write, the largest and present length. No register changes but the
depth of the mailbox. -/
def Obligations.DictionaryReadsAnswer : Prop :=
  ∀ (s : State) (q : Requester) (ix : BitVec 16) (sub : Byte) (off len queued : Nat), s.inReset = false → s.reaches q = true →
    q ≠ .tap →
    let rd := Instr.odrd q ix sub off len queued
    let ds := Instr.oddesc q ix sub queued
    let ring := ringLogRead q ix.toNat sub.toNat = true ∧ 2 ≤ s.mpst
    (s.bit F.MGT_STAT.SHED [] = true → ¬ring →
      (ix.toNat ≠ 0x4200 → Runs rd s fun t => t.lastStat = 2 ∧ t.mp.mbox = s.mp.mbox ∧ t.od = s.od) ∧
      Runs ds s fun t => t.lastStat = 2 ∧ t.mp.mbox = s.mp.mbox ∧ t.od = s.od) ∧
    (s.bit F.MGT_STAT.SHED [] = false → 64 ≤ queued + s.mp.mbox.length → ¬ring → ∀ i ∈ [rd, ds], Runs i s fun t =>
      t.lastStat = 2 ∧ t.mp.mbox = s.mp.mbox ∧ t.od = s.od) ∧
    (s.bit F.MGT_STAT.SHED [] = false → queued + s.mp.mbox.length < 64 → 2 ≤ s.mpst → ¬ring → ∀ i ∈ [rd, ds], Runs i s fun t =>
      t.mp.mbox = s.mp.mbox ++ [i] ∧ t.od = s.od ∧ RegsBut [regAddr .MGT_MBOX []] s t) ∧
    (ring → s.holds q 1 0 = false → Runs rd s fun t => t.lastStat = 1) ∧
    (ring → s.holds q 1 0 = true → Runs rd s fun t => t.lastStat = 0 ∧ t.mp.mbox = s.mp.mbox ∧ t.regs = s.regs ∧
      ∃ r : Reply, t.i3c.resp = some r.bytes ∧ r.data = (s.ringLogBytes.drop off).take (min len 240)) ∧
    (s.bit F.MGT_STAT.SHED [] = false → queued + s.mp.mbox.length < 64 → s.mpst = 1 →
    let a := ix.toNat * 256 + sub.toNat
    let answers := fun (i : Instr) (P : State → Reply → Prop) => Runs i s fun t => ∃ u r, P u r ∧
      t = (u.respond q r).setFld F.MGT_MBOX.DQ [] 0 ∧ RegsBut [regAddr .MGT_MBOX []] s u ∧ u.cl = s.cl
    (odEnt ix.toNat sub.toNat = none →
      answers (.odrd q ix sub off len queued) (fun _ r => r = ⟨10 - 8, 7, a, off, 0, 0, []⟩) ∧
      answers (.oddesc q ix sub queued) (fun _ r => r = ⟨12 - 8, 7, a, 0, 0, 0, []⟩)) ∧
    (∀ e, odEnt ix.toNat sub.toNat = some e → s.holds q (odRights ix.toNat sub.toNat).1 (ix.toNat % 16) = false →
      (Runs (.odrd q ix sub off len queued) s fun t => t.lastStat = 1) ∧ Runs (.oddesc q ix sub queued) s fun t => t.lastStat = 1) ∧
    (∀ e, odEnt ix.toNat sub.toNat = some e → s.holds q (odRights ix.toNat sub.toNat).1 (ix.toNat % 16) = true →
      (¬(ix.toNat = 0x1200 ∧ sub.toNat = 5) → ¬(ix.toNat = 0x7120 ∧ sub.toNat = 2) → ix.toNat ≠ 0x5000 →
        answers (.odrd q ix sub off len queued) fun u r =>
          let v := u.odValue ix.toNat sub.toNat e
          let d := (v.drop off).take (min len (s.dataLimit q))
          r = ⟨10 - 8, 0, a, off, d.length, if off + d.length < v.length then 2 ^ 15 else 0, d⟩) ∧
      answers (.oddesc q ix sub queued) fun u r => r.stat = 0 ∧ r.len = 16 ∧ r.data = u.descriptor ix.toNat sub.toNat e ∧
        r.data.length = 16 ∧ leAt r.data 0 1 = e.ty ∧ leAt r.data 1 1 = e.acc ∧ leAt r.data 4 4 = e.maxlen))

/-- ODWR served: NOENT, FORMAT, DENIED, READONLY, SEALED and TYPE in that order, and what an accepted value changes.
While firmware runs, with room in the mailbox and no shedding, for a requester whose request reaches the die: a write
is answered NOENT, FORMAT, DENIED, READONLY, SEALED or TYPE for the first of these that holds (their order is the
model's choice, log 14), and none of these changes a stored value; a numeric configuration value in its range waits
for the coming RECON once tides run, and until the die has sealed the coming tide; a segment that is not the last
leaves the staging open with what has arrived; and one from another requester meanwhile is BUSY. -/
def Obligations.DictionaryWritesAreJudgedInOrder : Prop :=
  ∀ (s : State) (q : Requester) (ix : BitVec 16) (sub : Byte) (first last : Bool) (off queued : Nat) (data : Bytes),
    s.inReset = false → s.reaches q = true → q ≠ .tap → s.mpst = 1 → s.fld F.MGT_STAT.SHED [] = 0 →
    queued + s.mp.mbox.length < 64 →
    let w := Instr.odwr q ix sub first last off data queued
    let n := ix.toNat
    let k := sub.toNat
    let refused := fun (st : Nat) => Runs w s fun t => t.lastStat = st ∧ t.cfgNext = s.cfgNext ∧ t.cfgLate = s.cfgLate ∧
      t.mp.staging = s.mp.staging ∧ (∀ x, x ≠ 0x5000 * 256 + 1 → SMap.find t.od x = SMap.find s.od x) ∧
      RegsBut [regAddr .MGT_MBOX [], regAddr .MGT_CNT [], regAddr .FE_EVSTAT []] s t
    (odEnt n k = none → refused 7) ∧
    (∀ e, odEnt n k = some e →
      (s.dataLimit q < data.length → refused 10) ∧
      (data.length ≤ s.dataLimit q →
        (s.holds q (odRights n k).2 (n % 16) = false → refused 1) ∧
        (s.holds q (odRights n k).2 (n % 16) = true →
          (e.acc = accConst ∨ e.acc = accRo → refused 8) ∧
          (e.acc = accRws → s.sealed = true → refused 6) ∧
          (e.acc ≠ accConst → e.acc ≠ accRo → ¬(e.acc = accRws ∧ s.sealed = true) →
            (∀ m, tyLen e.ty = some m → off ≠ 0 ∨ data.length ≠ m → refused 9) ∧
            (∀ m, tyLen e.ty = some m → off = 0 → data.length = m → 0x2000 ≤ n → n < 0x3000 → cfgRange n k (leNat data) = true →
              s.tide.begun = true → s.tst < 2 → Runs w s fun t => t.lastStat = 0 ∧ t.cfgLate = s.cfgLate ∧
                t.cfgNext = SMap.put s.cfgNext (n * 256 + k) data ∧ RegsBut [regAddr .MGT_MBOX []] s t) ∧
            (tyLen e.ty = none → (s.stagingOf n k).any (fun x => !sameRequester x.q q) = true →
              Runs w s fun t => t.lastStat = 2 ∧ t.mp.staging = s.mp.staging) ∧
            (tyLen e.ty = none → s.stagingOf n k = none → first = true → last = false → off = 0 →
              Runs w s fun t => t.lastStat = 0 ∧ ⟨q, n, k, data⟩ ∈ t.mp.staging)))))

/-- A private write carries the request of its command block; malformed blocks answer FORMAT; an idle staging ends.
Out of reset: a well-formed command block of a private write has the effect of the row its opcode names, after the
unread response is discarded; a private write with a parity error changes nothing; a malformed block of a request that
reaches the die is answered FORMAT with the address and offset it holds; a block whose ADDR names no index is answered
NOENT; a target without an address takes no write; STAGING_TIMEOUT discards the staging of its entry and posts event
0x0909 with the entry and the requester. -/
def Obligations.RequestsArriveAndStagingsEnd : Prop :=
  ∀ s : State, s.inReset = false →
    (∀ (b : Bytes) (queued : Nat), s.i3c.addr.isSome = true →
      let u : State := { s with
        out := .i3c true [] :: s.out
        i3c := { s.i3c with resp := none, drop := (s.mp.mbox.filter overI3c).length } }
      let w := Instr.i3cPrivateWrite b false queued
      let ix := BitVec.ofNat 16 (leAt b 4 4 / 256)
      let sub := BitVec.ofNat 8 (leAt b 4 4)
      (Runs (.i3cPrivateWrite b true queued) s fun t => t = s) ∧
      (blockBad b = true → Runs w s fun t => t.lastStat = 10 ∧
        t.i3c.resp = some (Reply.plain (leAt b 0 1) 10 (leAt b 4 4) (leAt b 8 4)).bytes ∧ t.regs = s.regs) ∧
      (blockBad b = false →
        (leAt b 0 1 = 0 → exec w s = exec (.rreg .i3c (leAt b 4 4) (leAt b 12 2)) u) ∧
        (leAt b 0 1 = 1 → exec w s = exec (.wreg .i3c (leAt b 4 4) (b.drop 16)) u) ∧
        (leAt b 4 4 < 2 ^ 24 →
          (leAt b 0 1 = 2 → exec w s = exec (.odrd .i3c ix sub (leAt b 8 4) (leAt b 12 2) queued) u) ∧
          (leAt b 0 1 = 3 → exec w s = exec (.odwr .i3c ix sub (bitAt (leAt b 2 1) 0) (bitAt (leAt b 2 1) 1) (leAt b 8 4)
            (b.drop 16) queued) u) ∧
          (leAt b 0 1 = 4 → exec w s = exec (.oddesc .i3c ix sub queued) u)) ∧
        (2 ^ 24 ≤ leAt b 4 4 → 2 ≤ leAt b 0 1 → Runs w s fun t => t.lastStat = 7 ∧ t.regs = s.regs))) ∧
    (∀ (q : Requester) (b : Bytes), s.reaches q = true → blockBad b = true → Runs (.mgtFormatError q b) s fun t =>
      t = (s.mgtTook q (b.length - 16)).respond q ⟨leAt b 0 1, 10, leAt b 4 4, leAt b 8 4, 0, 0, []⟩ ∧ t.lastStat = 10 ∧
        t.regs = s.regs) ∧
    (∀ (q : Requester) (b : Bytes), s.reaches q = false ∨ blockBad b = false → exec (.mgtFormatError q b) s = .next s) ∧
    (∀ (b : Bytes) (e : Bool) (queued : Nat), s.i3c.addr = none → Runs (.i3cPrivateWrite b e queued) s fun t =>
      t = { s with out := .i3c false [] :: s.out }) ∧
    (∀ (ix : BitVec 16) (sub : Byte), s.stagingOf ix.toNat sub.toNat = none → exec (.stagingTimeout ix sub) s = .next s) ∧
    (∀ (ix : BitVec 16) (sub : Byte) (x : Staging), s.stagingOf ix.toNat sub.toNat = some x → s.evq.length < 1024 →
      s.mp.rlNew < 256 →
      Runs (.stagingTimeout ix sub) s fun t => t.stagingOf ix.toNat sub.toNat = none ∧
        (∃ e, t.evq = s.evq ++ [e] ∧ e.code = 0x0909 ∧ e.arg0 = BitVec.ofNat 64 (x.index * 256 + x.sub) ∧
          e.arg1 = BitVec.ofNat 64 (transportOf x.q)) ∧ RegsBut [regAddr .FE_EVSTAT []] s t)

/-- What a write of a window, its credit, a lane map or a leg limit changes, and when it is refused. For a clocked
die: each of these writes of a cluster outside the grade is UNMAPPED, and each by a requester without the right
DENIED. With the right to its windows a requester opens a closed window whose berth is resident, whose range lies in
the berth and overlaps no open window of it, and whose class fits; the write is INVALID where one of these fails, BUSY
on another value of an open window, and a write with OPEN 0 closes it, so that the front end no longer counts it as
its own; the credit register is written field by field, and GWADD adds to CRD, saturating; a holder of DADMIN writes
the lane map outside a partition or in a fenced cluster (a lane of 8 or more reads 0xF), and LUS of the leg limit
outside a partition, with LMAX from the present CCLK; else these two are BUSY. Each changes no other register, and no
store. -/
def Obligations.WindowsOpenCloseAndTakeCredit : Prop :=
  ∀ (s : State) (q : Requester) (c : Nat) (v : W64), s.coreOn = true →
    let ends := fun (i : Instr) (st : Nat) => exec i s = .next { s with lastStat := st }
    let keeps := fun (st : Nat) (l : List Nat) (t : State) => t = { s with regs := t.regs, lastStat := st } ∧ RegsBut l s t
    (s.enabled c = false → ∀ (g : Fin 32) (n : Fin 64), (v.getLsbD 63 = true → ends (.windowOpen q c g v) 5) ∧
      (v.getLsbD 63 = false → ends (.windowClose q c g v) 5) ∧
      ∀ i ∈ [Instr.gwcrdWrite q c g v, .gwaddWrite q c g v, .lmapWrite q c n v, .legmaxLusWrite q c v], ends i 5) ∧
    (∀ g : Fin 32, (v.getLsbD 63 = false → exec (.windowOpen q c g v) s = .next s) ∧
      (v.getLsbD 63 = true → exec (.windowClose q c g v) s = .next s)) ∧
    (s.enabled c = true →
    (∀ g : Fin 32, s.windowRight q c = false → (v.getLsbD 63 = true → Runs (.windowOpen q c g v) s (Denied s)) ∧
      (v.getLsbD 63 = false → Runs (.windowClose q c g v) s (Denied s)) ∧
      Runs (.gwcrdWrite q c g v) s (Denied s) ∧ Runs (.gwaddWrite q c g v) s (Denied s)) ∧
    (∀ g : Fin 32, s.windowRight q c = true →
      let w := regAddr .CLU_GWCFG [c, g.val]
      (v.getLsbD 63 = true →
        (s.fld F.CLU_GWCFG.OPEN [c, g.val] = 0 → s.openRefused c g.val v.toNat = false →
          Runs (.windowOpen q c g v) s fun t => keeps 0 [w, regAddr .CLU_BERTH [c, bits v.toNat 52 7]] t ∧
            t.word .CLU_GWCFG [c, g.val] = v.toNat ∧ t.fld F.CLU_BERTH.GWO [c, bits v.toNat 52 7] = 1) ∧
        (s.fld F.CLU_GWCFG.OPEN [c, g.val] = 0 → s.openRefused c g.val v.toNat = true → ends (.windowOpen q c g v) 3) ∧
        (s.fld F.CLU_GWCFG.OPEN [c, g.val] = 1 →
          ends (.windowOpen q c g v) (if v.toNat = s.word .CLU_GWCFG [c, g.val] then 0 else 2))) ∧
      (v.getLsbD 63 = false → Runs (.windowClose q c g v) s fun t =>
        t = { s with regs := t.regs, fe := t.fe, lastStat := 0 } ∧
        RegsBut [w, regAddr .CLU_BERTH [c, s.fld F.CLU_GWCFG.BERTH [c, g.val]]] s t ∧ t.word .CLU_GWCFG [c, g.val] = v.toNat ∧
        (s.fld F.CLU_GWCFG.OPEN [c, g.val] = 0 → t.fe = s.fe) ∧
        (s.fld F.CLU_GWCFG.OPEN [c, g.val] = 1 → (c, g.val) ∉ (t.front (s.partOf c)).opened)) ∧
      (Runs (.gwcrdWrite q c g v) s fun t => keeps 0 [regAddr .CLU_GWCRD [c, g.val]] t ∧
        ∀ f ∈ regFields .CLU_GWCRD, t.fld f [c, g.val] = bits v.toNat f.lo f.w) ∧
      (Runs (.gwaddWrite q c g v) s fun t => keeps 0 [regAddr .CLU_GWCRD [c, g.val]] t ∧
        t.fld F.CLU_GWCRD.CRD [c, g.val] = min (s.fld F.CLU_GWCRD.CRD [c, g.val] + bits v.toNat 0 20) (2 ^ 20 - 1) ∧
        t.fld F.CLU_GWCRD.CRINIT [c, g.val] = s.fld F.CLU_GWCRD.CRINIT [c, g.val] ∧
        t.fld F.CLU_GWCRD.ACPT [c, g.val] = s.fld F.CLU_GWCRD.ACPT [c, g.val])) ∧
    (∀ n : Fin 64,
      ((s.rightsOf q).dadmin = false → Runs (.lmapWrite q c n v) s (Denied s) ∧ Runs (.legmaxLusWrite q c v) s (Denied s)) ∧
      ((s.rightsOf q).dadmin = true →
        (s.inPart c = true → s.bit F.CLU_CSITE.FEN [c] = false → ends (.lmapWrite q c n v) 2) ∧
        (s.inPart c = false ∨ s.bit F.CLU_CSITE.FEN [c] = true →
          let fix := fun (x : Nat) => if 8 ≤ x then 0xF else x
          Runs (.lmapWrite q c n v) s fun t => keeps 0 [regAddr .CLU_LMAP [c, n.val]] t ∧
            t.fld F.CLU_LMAP.BYP_A [c, n.val] = fix (bits v.toNat 0 4) ∧
            t.fld F.CLU_LMAP.BYP_B [c, n.val] = fix (bits v.toNat 8 4) ∧
            t.fld F.CLU_LMAP.CBAD [c, n.val] = s.fld F.CLU_LMAP.CBAD [c, n.val]) ∧
        (s.inPart c = true → ends (.legmaxLusWrite q c v) 2) ∧
        (s.inPart c = false → Runs (.legmaxLusWrite q c v) s fun t => keeps 0 [regAddr .CLU_PLEGMAX [c]] t ∧
          t.fld F.CLU_PLEGMAX.LUS [c] = bits v.toNat 32 9 ∧
          t.fld F.CLU_PLEGMAX.LMAX [c] = max 1 (min (bits v.toNat 32 9) 400) * s.fld F.CLK_CCLK.CUR [] / 1000))))

/-- A remote write lands in its bytes alone where it passes every check, and is counted and dropped where it does not.
For a clocked die: a write to a cluster outside the grade does nothing. A remote write that the checks admit through
window g takes one credit of g and adds one to ACPT and to WACC of the berth; a chain write, or one whose banks are
idle, stores its data at base + offset of its berth and leaves every other byte of every store but the shadow as it
was; any other waits for its banks, and no byte changes; one that a check refuses stores nothing, and advances the
counter of its reason and that of its berth. A landing-buffer write from its partition and generation to a landing-
buffer gateway with room enters at WPTR, advances it, and adds one to the fill tally where that admits the partition;
one of another partition or generation, or to a gateway of another mode, is counted in BSTALE; a full buffer leaves it
waiting. -/
def Obligations.RemoteWritesLandExactlyInTheirBytes : Prop :=
  (∀ (s : State) (w : RemoteWrite), s.coreOn = true → s.enabled w.cluster = false → exec (.remoteWrite w) s = .next s) ∧
  (∀ (s : State) (w : RemoteWrite) (g : Nat), s.coreOn = true → s.enabled w.cluster = true → s.judgeWrite w = .inl g →
    Runs (.remoteWrite w) s fun t =>
      let c := w.cluster
      let st := s.berthStore c w.handle
      let a := s.berthBase c w.handle + w.off
      let now := w.cls = .chain ∨ s.banksIdle c st a w.data.length = true
      (∀ d, d ≠ c → t.clu d = s.clu d) ∧
      (now → ((t.clu c).store st).bytes a w.data.length = w.data ∧
        ∀ k, k ≠ 3 → ∀ x, (k ≠ st ∨ x < a ∨ a + w.data.length ≤ x) → ((t.clu c).store k).byte x = ((s.clu c).store k).byte x) ∧
      (¬now → t.clu c = { s.clu c with elw := (s.clu c).elw ++ [(st, a, w.data)] }) ∧
      t.fld F.CLU_GWCRD.CRD [c, g] + 1 = s.fld F.CLU_GWCRD.CRD [c, g] ∧
      t.fld F.CLU_GWCRD.ACPT [c, g] = min (s.fld F.CLU_GWCRD.ACPT [c, g] + 1) (2 ^ 20 - 1) ∧
      ((s.clu c).ecc = [] →
        t.fld F.CLU_BCNT.WACC [c, w.handle] = satAdd F.CLU_BCNT.WACC.w (s.fld F.CLU_BCNT.WACC [c, w.handle]) 1 ∧
        RegsBut [regAddr .CLU_GWCRD [c, g], regAddr .CLU_BCNT [c, w.handle], regAddr .CLU_PSHDW [c]] s t)) ∧
  (∀ (s : State) (w : RemoteWrite) (r : Nat), s.coreOn = true → s.enabled w.cluster = true →
    s.judgeWrite w = .inr r → Runs (.remoteWrite w) s fun t =>
      t.cl = s.cl ∧ t.fld (dropFld r) [w.cluster] = satAdd (dropFld r).w (s.fld (dropFld r) [w.cluster]) 1 ∧
      (w.handle < 128 → t.fld F.CLU_BCNT.DROP [w.cluster, w.handle] =
        satAdd F.CLU_BCNT.DROP.w (s.fld F.CLU_BCNT.DROP [w.cluster, w.handle]) 1) ∧
      RegsBut ([regAddr (dropFld r).reg [w.cluster], regAddr .FE_EVSTAT []] ++
        if w.handle < 128 then [regAddr .CLU_BCNT [w.cluster, w.handle]] else []) s t) ∧
  (∀ (s : State) (w : LbufWrite), s.coreOn = true →
    let c := w.cluster
    let g := w.gate.val
    (s.enabled c = false → exec (.landingBufferWrite w) s = .next s) ∧
    (s.enabled c = true →
      let mine := s.inPart c = true ∧ w.part = s.partOf c ∧ w.gen.toNat = s.fld F.CLU_STSTAT.CGEN [c] ∧
        s.fld F.CHN_GWCFG.MODE [c, g] = 1
      let used := (s.fld F.CHN_GWPTR.WPTR [c, g] + 1024 - s.fld F.CHN_GWPTR.CPTR [c, g]) % 1024
      (¬mine → Runs (.landingBufferWrite w) s fun t => t = { s with regs := t.regs } ∧ RegsBut [regAddr .CHN_CERR [c]] s t ∧
        t.fld F.CHN_CERR.BSTALE [c] = satAdd F.CHN_CERR.BSTALE.w (s.fld F.CHN_CERR.BSTALE [c]) 1) ∧
      (mine → 512 ≤ used → exec (.landingBufferWrite w) s = .next s) ∧
      (mine → used < 512 → Runs (.landingBufferWrite w) s fun t =>
        SMap.get (List.replicate 64 0) (t.clu c).lbuf (g * 512 + s.fld F.CHN_GWPTR.WPTR [c, g] % 512) = slice w.data 0 64 ∧
        t.fld F.CHN_GWPTR.WPTR [c, g] = (s.fld F.CHN_GWPTR.WPTR [c, g] + 1) % 1024 ∧
        (∀ d, d ≠ c → t.clu d = s.clu d) ∧ (t.clu c).p = (s.clu c).p ∧
        (let y := s.fld F.CHN_GWCFG.FTALLY [c, g]
         (s.tallyAdmits y w.part w.gen.toNat none = true → s.voyaging (s.fld F.TDE_TCFG.OWNER [y]) = true →
           SMap.get TNet.zero t.tnet y = { SMap.get TNet.zero s.tnet y with einc := (SMap.get TNet.zero s.tnet y).einc + 1 }) ∧
         (s.tallyAdmits y w.part w.gen.toNat none = false → t.tnet = s.tnet ∧
           t.word .TDE_TAL [y] = s.word .TDE_TAL [y])))))

/-- A change of a tally beyond its range leaves it at the end of the range with SAT or UNF set. R252, for the net
change of one ccy to an assigned tally: the exact result is the value plus what was added less what was subtracted;
above 16,777,215 it leaves VALUE there and sets SAT, below 0 it leaves VALUE at 0 and sets UNF, else VALUE is that
result; a change clears neither SAT nor UNF, and sets neither otherwise; so a decrement alone of a tally at zero sets
UNF. -/
def Obligations.TalliesSaturateAndNeverWrap : Prop :=
  ∀ (s : State) (y : Nat) (n : TNet), y < 16384 → s.fld F.TDE_TCFG.ASG [y] = 1 →
    let exact : Int := (s.fld F.TDE_TAL.VALUE [y] : Int) + n.sinc + n.einc - n.sdec - n.edec
    let t := s.applyTally y n
    (16777215 < exact → t.fld F.TDE_TAL.VALUE [y] = 16777215 ∧ t.fld F.TDE_TAL.SAT [y] = 1 ∧
      t.fld F.TDE_TAL.UNF [y] = s.fld F.TDE_TAL.UNF [y]) ∧
    (exact < 0 → t.fld F.TDE_TAL.VALUE [y] = 0 ∧ t.fld F.TDE_TAL.UNF [y] = 1 ∧
      t.fld F.TDE_TAL.SAT [y] = s.fld F.TDE_TAL.SAT [y]) ∧
    (0 ≤ exact → exact ≤ 16777215 → (t.fld F.TDE_TAL.VALUE [y] : Int) = exact ∧
      t.fld F.TDE_TAL.SAT [y] = s.fld F.TDE_TAL.SAT [y] ∧ t.fld F.TDE_TAL.UNF [y] = s.fld F.TDE_TAL.UNF [y]) ∧
    (s.fld F.TDE_TAL.VALUE [y] = 0 → n.sinc = 0 → n.einc = 0 → 0 < n.sdec + n.edec → t.fld F.TDE_TAL.UNF [y] = 1)

/-- A stroke adds to the net change of its ccy, and a register write of a tally is judged by its owner. For a clocked
die: the tally field of the present compute stroke adds 2^TAMT to, or subtracts it from, the net change of the tally
it is bound to while the tally's owner sails, or changes the tally at once where no ccy of the owner runs; an unbound
one is carried out alone; with no such field left to carry out nothing happens. A write of TDE_TAL without DADMIN is
DENIED; with it, it clears the flags written 1; it is BUSY, with VALUE as it was, while the owner's voyage lives; else
an assigned tally takes VALUE and has PEND, UINC and SDELTA 0 before the decrements that wait are tried again, and an
unassigned one stays 0; where none waits, no other register changes. -/
def Obligations.TallyRowsChangeTheirTally : Prop :=
  (∀ (s : State) (c : Nat), s.coreOn = true →
    (s.headEnt c = none → exec (.strokeTallyChange c) s = .next s) ∧
    ∀ e, s.headEnt c = some e →
    (strokeKind e.word ≠ 0 ∨ bitAt e.todo 0 = false → exec (.strokeTallyChange c) s = .next s) ∧
    (strokeKind e.word = 0 → bitAt e.todo 0 = true →
      (e.bind = none → exec (.strokeTallyChange c) s = .next (s.doneField c 0)) ∧
      ∀ sub y, e.bind = some (sub, y) →
        let amt := 2 ^ bits e.word 229 3
        let sails := s.fld F.TDE_TCFG.ASG [y] = 1 ∧ s.voyaging (s.fld F.TDE_TCFG.OWNER [y]) = true
        (sails → Runs (.strokeTallyChange c) s fun t =>
          let o := SMap.get TNet.zero s.tnet y
          t = { s.doneField c 0 with tnet := t.tnet } ∧
          (∀ z, z ≠ y → SMap.get TNet.zero t.tnet z = SMap.get TNet.zero s.tnet z) ∧
          SMap.get TNet.zero t.tnet y = if sub then { o with sdec := o.sdec + amt } else { o with sinc := o.sinc + amt }) ∧
        (¬sails → Runs (.strokeTallyChange c) s fun t => t = { s.doneField c 0 with regs := t.regs } ∧
          RegsBut [regAddr .TDE_TAL [y], regAddr .TDE_TCNT [y], regAddr .TDE_TLEG [y]] s t ∧
          (y < 16384 → s.fld F.TDE_TCFG.ASG [y] = 1 → t.fld F.TDE_TAL.VALUE [y] =
            if sub then s.fld F.TDE_TAL.VALUE [y] - amt else min (s.fld F.TDE_TAL.VALUE [y] + amt) 16777215) ∧
          (s.fld F.TDE_TCFG.ASG [y] = 0 → t.regs = s.regs)))) ∧
  (∀ (s : State) (q : Requester) (y : Fin 16384) (v : W64), s.coreOn = true →
    ((s.rightsOf q).dadmin = false → Runs (.tallyValueWrite q y v) s (Denied s)) ∧
    ((s.rightsOf q).dadmin = true →
      let busy := s.fld F.TDE_TCFG.ASG [y.val] = 1 ∧ (s.part (s.fld F.TDE_TCFG.OWNER [y.val])).live = true
      let flags := fun (t : State) => ∀ k, 60 ≤ k → k < 64 →
        bitAt (t.word .TDE_TAL [y.val]) k = (bitAt (s.word .TDE_TAL [y.val]) k && !v.getLsbD k)
      (busy → Runs (.tallyValueWrite q y v) s fun t => t.lastStat = 2 ∧ flags t ∧ RegsBut [regAddr .TDE_TAL [y.val]] s t ∧
        bits (t.word .TDE_TAL [y.val]) 0 60 = bits (s.word .TDE_TAL [y.val]) 0 60) ∧
      (¬busy → Runs (.tallyValueWrite q y v) s fun t => t.lastStat = 0 ∧ t.cl = s.cl ∧ (s.tide.waits = [] → flags t ∧
        RegsBut [regAddr .TDE_TAL [y.val], regAddr .TDE_TLEG [y.val]] s t ∧
        (s.fld F.TDE_TCFG.ASG [y.val] = 1 → t.fld F.TDE_TAL.VALUE [y.val] = bits v.toNat 0 24 ∧
          t.fld F.TDE_TAL.PEND [y.val] = 0 ∧ t.fld F.TDE_TLEG.UINC [y.val] = 0 ∧ t.fld F.TDE_TLEG.SDELTA [y.val] = 0) ∧
        (s.fld F.TDE_TCFG.ASG [y.val] = 0 → bits (t.word .TDE_TAL [y.val]) 0 60 = bits (s.word .TDE_TAL [y.val]) 0 60)))))

/-- What zeroing, scrubbing and write-back change in a cluster, byte by byte. For a clocked die: the zero engine of a
store clears at most 8 granules (4 in the P-store and the shadow) that wait to be cleared and whose banks neither the
schedule nor an elastic use takes, and changes no other byte; zeroing that is complete frees every berth whose range
is clear with its counts; a cluster that left its partition and is clear returns to the pool with its stores empty; a
scrub moves on by one line of each store whose bank is idle, wrapping at the last, and changes no byte; a write-back
takes the oldest corrected line from the queue and its correctable errors with it once its bank is idle, changes no
byte, and poisons the berth of an uncorrectable word it finds; with scrubbing off, outside the grade, with nothing
queued or a busy bank nothing happens. -/
def Obligations.ZeroingScrubbingAndWritebackKeepOtherBytes : Prop :=
  let kept := fun (s t : State) (c : Nat) => (∀ d, d ≠ c → t.clu d = s.clu d) ∧
    ∀ k x, k < 5 → ((t.clu c).store k).byte x = ((s.clu c).store k).byte x
  (∀ (s : State) (c : Nat) (store : Fin 4) (busy : List Nat), s.coreOn = true →
    Runs (.zeroEngineClear c store busy) s fun t => (∀ d, d ≠ c → t.clu d = s.clu d) ∧ RegsBut [regAddr .CLU_STSTAT [c]] s t ∧
      ∃ gs : List Nat, gs.length ≤ (if store.val ≤ 1 then 8 else 4) ∧
        (∀ g ∈ gs, (∃ r ∈ (s.clu c).zr, r.store = store.val ∧ r.holds g = true) ∧
          ∀ b ∈ granBanks (storeBanks store.val) g, b ∉ busy ∧ b ∉ s.schedBanks c store.val ∧ (store.val, b) ∉ (s.clu c).ebanks) ∧
        (gs = [] → ∀ r ∈ (s.clu c).zr, r.store = store.val → ∀ g < 4096, r.holds g = true →
          ∃ b ∈ granBanks (storeBanks store.val) g, b ∈ busy ∨ b ∈ s.schedBanks c store.val ∨ (store.val, b) ∈ (s.clu c).ebanks) ∧
        ∀ k x, k < 5 → ((t.clu c).store k).byte x =
          if k = store.val ∧ x / 64 ∈ gs then 0 else ((s.clu c).store k).byte x) ∧
  (∀ (s : State) (c : Nat), s.coreOn = true → c < 1250 → (∀ r ∈ (s.clu c).zr, ∀ h, r.berth = some h → h < 128) →
    Runs (.zeroingComplete c) s fun t =>
      let rest := (s.clu c).zr.filter (fun r => !decide (r.hi ≤ r.lo))
      (s.inPart c = false → (∀ d, d ≠ c → t.clu d = s.clu d) ∧
        ((s.clu c).leaving = false ∨ rest ≠ [] → t.clu c = { s.clu c with zr := rest }) ∧
        ((s.clu c).leaving = true → rest = [] → (t.clu c).leaving = false ∧ (t.clu c).zr = [] ∧
          ∀ k, k < 5 → (t.clu c).store k = [])) ∧
      ((s.inPart c = false ∨ (s.front (s.partOf c)).toPlace = []) → ∀ r ∈ (s.clu c).zr, ∀ h, r.hi ≤ r.lo → r.berth = some h →
        t.word .CLU_BERTH [c, h] = 0 ∧ t.word .CLU_BCNT [c, h] = 0)) ∧
  (∀ (s : State) (c : Nat), s.coreOn = true →
    (s.fld F.CLU_SCRUB.EN [c] = 0 ∨ s.enabled c = false → exec (.scrub c) s = .next s) ∧
    (s.fld F.CLU_SCRUB.EN [c] = 1 → s.enabled c = true → Runs (.scrub c) s fun t => kept s t c ∧
      ((s.clu c).ecc = [] → t.regs = s.regs) ∧ ∀ st < 5, st < (s.clu c).scrub.length →
        let line := listGet 0 (s.clu c).scrub st
        listGet 0 (t.clu c).scrub st = if s.banksIdle c st (32 * line) 32 = true then (line + 1) % (storeSize st / 32) else line)) ∧
  (∀ (s : State) (c : Nat), s.coreOn = true →
    ((s.clu c).wb = [] → exec (.correctedLineWriteback c) s = .next s) ∧
    ∀ st line r, (s.clu c).wb = (st, line) :: r →
    (s.banksIdle c st (32 * line) 32 = false → exec (.correctedLineWriteback c) s = .next s) ∧
    (s.banksIdle c st (32 * line) 32 = true → (∀ e ∈ (s.clu c).ecc, e.2 = 1 ∨ e.2 = 2) →
      Runs (.correctedLineWriteback c) s fun t => kept s t c ∧ (t.clu c).wb = r ∧
        let bad := ((s.clu c).eccIn st (32 * line) (32 * line + 32)).filter (fun e => e.2 == 2)
        (t.clu c).eccIn st (32 * line) (32 * line + 32) = bad ∧ (bad = [] → t.regs = s.regs) ∧
        ∀ e ∈ bad, ∀ h, c < 1250 → s.berthAt c st (8 * e.1) = some h → t.bit F.CLU_BERTH.PSN [c, h] = true))

/-- A pilot decodes its next stroke, books or faults it, and its B slices arrive in order in their buffers. For a
clocked die: decoding, while the pilot runs and is not more than 16 schedule cycles ahead, with no error in the
stroke's line, either adds the stroke at the program counter to those decoded, at the decode cycle, or records one
fault of it, and the decode side then ends; a program counter past 1023 is fault 0x0D. A bank that no scheduled access
of the ccy takes (none does in a held ccy) and the sequencer has not used serves the first pending fetch there and is
used once in the ccy; slices that are due enter their lanes' buffers in the order of their fetches, no slice being
lost. Elsewhere none of these changes anything. A leg past its limit stops the partition 12 schedule cycles later with
STROKE code 0x10, found first in the lowest such cluster; otherwise nothing happens. -/
def Obligations.StrokesDecodeAheadOfIssue : Prop :=
  (∀ (s : State) (c : Nat), s.coreOn = true →
    let d := (s.clu c).dec
    let may := s.running c = true ∧ d.ended = false ∧ d.fault = none ∧ d.cyc ≤ s.scycOf c + 16
    (¬may → exec (.strokeDecode c) s = .next s) ∧
    (may → (d.pc ≤ 1023 → (s.clu c).eccIn 4 (32 * d.pc) (32 * d.pc + 32) = []) → Runs (.strokeDecode c) s fun t =>
      OnlyCluster c s t ∧ (t.clu c).p = (s.clu c).p ∧ (t.clu c).pend = (s.clu c).pend ∧
      ((∃ e, (t.clu c).look = (s.clu c).look ++ [e] ∧ e.addr = d.pc ∧ e.cyc = d.cyc ∧
          e.word = leNat ((s.clu c).ins.bytes (32 * d.pc) 32) ∧ (t.clu c).dec.cyc = e.endc + 1 ∧ (t.clu c).dec.fault = none) ∨
        ((t.clu c).look = (s.clu c).look ∧ (t.clu c).dec.ended = true ∧ ∃ f, (t.clu c).dec.fault = some f ∧ f.cyc = d.cyc ∧
          f.addr = d.pc % 1024)) ∧
      (1023 < d.pc → ∃ f, (t.clu c).dec.fault = some f ∧ f.code = 0x0D ∧ f.field = 0))) ∧
  (∀ (s : State) (c : Nat) (bank : Fin 16), s.coreOn = true →
    let held : Bool := match (s.part (s.partOf c)).hold with | h :: _ => h.causes != 0 | [] => false
    let idle := bank.val ∉ (s.clu c).fbanks ∧ (held = true ∨ bank.val ∉ s.busyBanks c (s.scycOf c))
    (¬(s.running c = true ∧ idle) → exec (.bFetch c bank) s = .next s) ∧
    (s.running c = true → idle → (s.clu c).ecc = [] → Runs (.bFetch c bank) s fun t =>
      OnlyCluster c s t ∧ t.clu c = { (s.clu c).bankFetch bank.val (s.part (s.partOf c)).pccy with
        fbanks := bank.val :: (s.clu c).fbanks })) ∧
  (∀ (s : State) (c : Nat), s.coreOn = true →
    (s.running c = false → exec (.bSliceArrival c) s = .next s) ∧
    (s.running c = true → Runs (.bSliceArrival c) s fun t =>
      let lane := fun (f : Fetch) => (f.core * 2 + f.row) * 8 + f.lane
      let held := fun (u : State) (k : Nat) => (u.clu c).laneFull k + ((u.clu c).fetches.filter (fun f => lane f == k)).length
      OnlyCluster c s t ∧ (∀ k, held t k = held s k) ∧
      (∀ k, ∃ l, (SMap.get (BLane.mk none []) (t.clu c).blanes k).nxt =
        (SMap.get (BLane.mk none []) (s.clu c).blanes k).nxt ++ l))) ∧
  (∀ (s : State) (p : Fin 16), s.coreOn = true →
    let q := s.part p.val
    let late := q.cls.filter (fun c => match (s.clu c).snap with
      | some sn => decide (s.fld F.CLU_PLEGMAX.LMAX [c] < q.scyc - sn.cyc) && decide (s.pilot c ≠ 5)
      | none => false)
    (late = [] ∨ q.live = false ∨ q.stopAt ≠ none → exec (.legLimitOverrun p) s = .next s) ∧
    ∀ c r, late = c :: r → q.live = true → q.stopAt = none → Runs (.legLimitOverrun p) s fun t =>
      t.cl = s.cl ∧ RegsBut (late.map fun d => regAddr .CLU_PFAULT [d]) s t ∧
      (t.part p.val).stopAt = some (q.scyc + 12, ⟨0x10, c, 0x10, 0, s.fld F.CLU_PSTAT.PC [c], q.scyc⟩) ∧
      ((∀ d ∈ late, d < 1250) → ∀ d ∈ late,
        t.word .CLU_PFAULT [d] = 0x10 * 2 ^ 56 + s.fld F.CLU_PSTAT.PC [d] * 2 ^ 32 + q.scyc % 2 ^ 32))

/-- A held ccy is counted once, and once for each cause, and the schedule stays where it is. For a clocked die: for a
partition that sails, with every ccy of the hold tree examined, the front one held and no stop of a recovery due, a
held ccy adds one to the hold total of every cluster of the partition and one to the counter of each cause present (a
wait at a join counting as its cause), saturating, moves the hold tree on by one, and leaves the schedule cycle, every
decoded stroke, every cell, every word in a link and every effect in a pipeline where it was (R31, R32); the front ccy
not held, or no voyage that sails or waits to resume, nothing happens. An examination marks its ccy examined, and
keeps the causes it has; the root decides the seven nearest examined ones; neither acts without a voyage that sails.
-/
def Obligations.HeldCyclesCountAndKeepTheSchedule : Prop :=
  (∀ (s : State) (p : Fin 16) (ccy : BitVec 32), s.coreOn = true →
    let q := s.part p.val
    (q.live = false → exec (.heldCycle p ccy) s = .next s) ∧
    ∀ (h : HoldSlot) (r : List HoldSlot), s.voyaging p.val = true → q.hold = h :: r → r.length = 12 →
    (∀ x ∈ h :: r, x.exam = true ∧ x.dec = true) →
    (h.causes = 0 → exec (.heldCycle p ccy) s = .next s) ∧
    (h.causes ≠ 0 → q.recDue = false → q.cls.Nodup → (∀ c ∈ q.cls, c < 1250) → (∀ x ∈ s.tnet, x.1 < 16384) →
    (∀ x ∈ s.tide.waits, x.tally < 16384) → Runs (.heldCycle p ccy) s fun t =>
      (t.part p.val).scyc = q.scyc ∧ (t.part p.val).pccy = q.pccy + 1 ∧ (t.part p.val).hold = r ++ [⟨0, false, false⟩] ∧
      ∀ c ∈ q.cls,
        let one := fun (f : Fld) (b : Bool) => t.fld f [c] = if b then satAdd f.w (s.fld f [c]) 1 else s.fld f [c]
        let cause := bitAt h.causes
        one F.CHN_HOLDT.TOTAL true ∧ one F.CHN_HOLDC_0.BUB (cause 0) ∧ one F.CHN_HOLDC_0.MISS (cause 1 || cause 6) ∧
        one F.CHN_HOLDC_1.DRY (cause 2) ∧ one F.CHN_HOLDC_1.DRN (cause 3) ∧ one F.CHN_HOLDC_2.TIDE (cause 4 || cause 7) ∧
        one F.CHN_HOLDC_2.RMT (cause 5) ∧
        (t.clu c).look = (s.clu c).look ∧ (t.clu c).cells = (s.clu c).cells ∧ (t.clu c).links = (s.clu c).links ∧
        (t.clu c).pend = (s.clu c).pend ∧ ((s.clu c).elw = [] → ∀ k, (t.clu c).store k = (s.clu c).store k))) ∧
  (∀ (s : State) (p : Fin 16), s.coreOn = true →
    (s.voyaging p.val = false → exec (.holdExamine p) s = .next s ∧ exec (.holdDecision p) s = .next s) ∧
    (s.voyaging p.val = true → (s.part p.val).hold.length = 13 → Runs (.holdExamine p) s fun t =>
      (t.part p.val).hold.length = 13 ∧ (t.part p.val).scyc = (s.part p.val).scyc ∧
      (s.decodedTo (s.part p.val) (s.part p.val).scyc = true →
        (listGet ⟨0, false, false⟩ (t.part p.val).hold 0).exam = true) ∧
      ∀ i < 13, let x := listGet ⟨0, false, false⟩ (s.part p.val).hold i
        let y := listGet ⟨0, false, false⟩ (t.part p.val).hold i
        Nat.land x.causes y.causes = x.causes ∧ y.dec = x.dec ∧ (x.exam = true → y = x)) ∧
    (s.voyaging p.val = true → Runs (.holdDecision p) s fun t => t.regs = s.regs ∧ t.cl = s.cl ∧
      (t.part p.val).hold = ((s.part p.val).hold.take 7).map
        (fun h => if h.exam then { h with dec := true } else h) ++ (s.part p.val).hold.drop 7))

/-- A ccy that is not held advances the schedule by one, lands what is due, and moves each launched word to its
neighbour. For a clocked die and a partition that sails, every ccy of the hold tree examined and no stop of a recovery
due: where the front ccy is held, nothing happens. Where it is not, no stop is due, every stroke of the cycle is
carried out, no error stands in the stores and every word in the links is intact, SAILING advances the schedule cycle
and the ccy by one; what was due in the cycle has landed; a stroke whose last cycle it was leaves the decoded strokes;
and a word launched toward an enabled port with a neighbour is in the neighbour's link two cycles later, with the data
of the berth, while some pilot has not ended. A stroke not carried out keeps the ccy where it is; a stop that is due
ends the voyage with its record. Without a voyage that sails nothing happens. -/
def Obligations.UnheldCyclesAdvanceTheScheduleByOne : Prop :=
  ∀ (s : State) (p : Fin 16), s.coreOn = true →
    (s.voyaging p.val = false → ∀ fs, exec (.sailing p fs) s = .next s) ∧
    ∀ (h : HoldSlot) (r : List HoldSlot), s.voyaging p.val = true →
    let q := s.part p.val
    let n := q.scyc
    q.hold = h :: r → r.length = 12 → (∀ x ∈ h :: r, x.exam = true ∧ x.dec = true) → q.recDue = false →
    (h.causes ≠ 0 → ∀ fs, exec (.sailing p fs) s = .next s) ∧
    (h.causes = 0 → (∀ c ∈ q.cls, (s.clu c).dec.fault = none) →
      (∀ u e fs, q.stopAt = some (u, e) → u ≤ n → (s.front p.val).resetting = false → Runs (.sailing p fs) s fun t =>
        (t.part p.val).live = false ∧ (t.part p.val).fin = some e) ∧
      ((match q.stopAt with | some x => n < x.1 | none => True) →
        ((∃ c ∈ q.cls, s.cycleDone c n = false) → ∀ fs, exec (.sailing p fs) s = .next s) ∧
        (q.cls.Nodup → (∀ x ∈ s.tide.waits, x.tally < 16384) →
        (∀ c ∈ q.cls, c < 1250 ∧ (s.clu c).ecc = [] ∧ s.cycleDone c n = true ∧
          ∀ l ∈ (s.clu c).links, l.port < 4 ∧ l.par = false ∧ l.poison = false ∧ crc16 l.data = l.crc) →
        Runs (.sailing p []) s fun t =>
          (t.part p.val).scyc = n + 1 ∧ (t.part p.val).pccy = q.pccy + 1 ∧ (t.part p.val).hold = r ++ [⟨0, false, false⟩] ∧
          (∀ c ∈ q.cls, (∀ e ∈ (t.clu c).pend, n < e.due) ∧
            (t.clu c).look = match s.entAt c n with
              | some e => if e.endc = n then (s.clu c).look.filter (fun x => x.cyc != e.cyc) else (s.clu c).look
              | none => (s.clu c).look) ∧
          ∀ c ∈ q.cls, ∀ ent it no b g o m, o < 4 → s.sailing c n = some (ent, it, no) → sailLaunch ent it = some (b, g) →
            sailSource ent o = 5 → s.portOn c o = true → s.neighbour c o = some m → s.fld F.CHN_RCFG.RFEN [c] = 0 →
            (∃ d ∈ q.cls, t.pilot d ≠ 5) →
            let w := ((s.clu c).store (s.berthStore c b)).bytes (s.berthBase c b + 64 * g) 64
            ⟨facing o, n + 2, n, w, false, crc16 w, false⟩ ∈ (t.clu m).links)))

/-- What a snoop, a data response and a completion do to their line of the COH window, and a ring index write to its
ring. For a clocked die: with the home of the window on a Torec landing that carries COH, and lines listed at rising
numbers (which every step keeps): a snoop gives its line up; the data of a doorbell that was asked for enters the
line, which is then shared, and becomes the acknowledged tail of a self ring or the tail of a ring, which, enabled and
given more than it holds, is in error; the grant of a status line that was asked for is answered by the line as the
die stands, written back; without such a home, or for a line that did not ask so, nothing happens. A completion ends a
write-back. No such message changes a store, and none but doorbells changes a register. A write of the index of a ring
is DENIED without its partition's right, BUSY while the ring is enabled, and else sets HEAD and DONE, and STAIL of a
self ring. -/
def Obligations.CoherenceMessagesMoveTheirLine : Prop :=
  (∀ (s : State) (i : Fin 256), s.coreOn = true →
    let x := s.line i.val
    (∀ o d, s.home = none ∨ ¬((i.val < 64 ∧ x.st = 1 ∧ o = false) ∨ (64 ≤ i.val ∧ x.st = 3 ∧ o = true)) →
      exec (.cohData i o d) s = .next s) ∧
    (s.home = none → exec (.cohSnpi i) s = .next s) ∧
    (x.st ≠ 5 → exec (.cohCmp i) s = .next s) ∧
    ∀ l, s.home = some l → s.coh.Pairwise (fun a b => a.1 < b.1) →
    let others := fun (t : State) => t.cl = s.cl ∧ ∀ j, j ≠ i.val → (t.line j).data = (s.line j).data
    (Runs (.cohSnpi i) s fun t => others t ∧ t.regs = s.regs ∧ (t.line i.val).data = x.data ∧
      (x.st ∈ [2, 4] → (t.line i.val).st ∉ [2, 4, 5])) ∧
    (i.val < 64 → x.st = 1 → ∀ d,
      let v := leAt d 0 4
      (s.fld F.FE_RING_CFG.SELF [i.val] = 1 → Runs (.cohData i false d) s fun t => others t ∧
        t.fld F.FE_RING_STL.ACK [i.val] = v ∧ RegsBut [regAddr .FE_RING_STL [i.val]] s t ∧ (t.line i.val).data = slice d 0 64) ∧
      (s.fld F.FE_RING_CFG.SELF [i.val] = 0 →
        let passed := s.ringSize i.val < sub32 v (s.fld F.FE_RING_IDX.DONE [i.val]) ∨
          s.ringSize i.val < sub32 v (SMap.get 0 s.tails i.val)
        Runs (.cohData i false d) s fun t => others t ∧ SMap.get 0 t.tails i.val = v ∧ (t.line i.val).data = slice d 0 64 ∧
          (s.fld F.FE_RING_CFG.EN [i.val] = 0 ∨ ¬passed → t.regs = s.regs) ∧
          (s.fld F.FE_RING_CFG.EN [i.val] = 1 → passed → t.fld F.FE_RING_CFG.EN [i.val] = 0 ∧ t.ringState i.val = 2 ∧
            RegsBut [regAddr .FE_RING_CFG [i.val], regAddr .FE_ERRCNT [], regAddr .FE_EVSTAT []] s t))) ∧
    (64 ≤ i.val → x.st = 3 → ∀ d, Runs (.cohData i true d) s fun t =>
      t.line i.val = ⟨s.lineData i.val, 5, false⟩ ∧ t.regs = s.regs ∧ others t) ∧
    (x.st = 5 → Runs (.cohCmp i) s fun t => t.regs = s.regs ∧ others t ∧ (t.line i.val).st ≠ 5 ∧
      (x.dirty = false → t.line i.val = { x with st := 0 }))) ∧
  (∀ (s : State) (q : Requester) (r : Fin 64) (v : W64), s.coreOn = true →
    let right := isFw q = true ∨ (s.rightsOf q).ofPart (s.fld F.FE_RING_CFG.PART [r.val]) = true
    (¬right → Runs (.ringIdxWrite q r v) s (Denied s)) ∧
    (right → s.fld F.FE_RING_CFG.EN [r.val] = 1 → exec (.ringIdxWrite q r v) s = .next { s with lastStat := 2 }) ∧
    (right → s.fld F.FE_RING_CFG.EN [r.val] = 0 → Runs (.ringIdxWrite q r v) s fun t => t.lastStat = 0 ∧
      t.fld F.FE_RING_IDX.DONE [r.val] = v.toNat % 2 ^ 32 ∧ t.fld F.FE_RING_IDX.HEAD [r.val] = v.toNat % 2 ^ 32 ∧
      t.fld F.FE_RING_STL.STAIL [r.val] =
        (if s.bit F.FE_RING_CFG.SELF [r.val] then v.toNat % 2 ^ 32 else s.fld F.FE_RING_STL.STAIL [r.val]) ∧
      RegsBut [regAddr .FE_RING_IDX [r.val], regAddr .FE_RING_STL [r.val], regAddr .FE_EVSTAT []] s t))

/-- A post takes the next sequence number and enters queue and ring log, or is counted lost; the writer takes the
oldest. A post with room enters the queue last, with the next sequence number, its code and arguments and the present
tide period, and, while the ring log holds no record that is still to be copied in its oldest place, enters the ring
log and posts nothing else (else it may post event 0x090A besides); with 1,024 entries queued it changes nothing but
LOST and what was dropped, but that a record of the MP itself enters the ring log all the same. EVENT_APPEND with
events enabled takes the oldest event from the queue, sets WIDX to its number plus 1 and, where posts had been
dropped, then tells their number by event 0x0001; with an empty queue or EN clear it changes nothing. -/
def Obligations.EventsQueueAppendAndAreLostInOrder : Prop :=
  (∀ (s : State) (code blk part loc a0 a1 : Nat),
    let t := s.post code blk part loc a0 a1
    let lost := satAdd F.FE_EVSTAT.LOST.w (s.fld F.FE_EVSTAT.LOST []) 1
    (s.evq.length < 1024 → ∃ (e : Event) (more : List Event), t.evq = s.evq ++ e :: more ∧ more.length ≤ 1 ∧ e.seq = s.evSeq ∧
      e.code = BitVec.ofNat 16 code ∧ e.arg0 = BitVec.ofNat 64 a0 ∧ e.arg1 = BitVec.ofNat 64 a1 ∧
      e.tide = BitVec.ofNat 32 s.period ∧ (∀ x ∈ more, x.code = 0x090A) ∧ RegsBut [regAddr .FE_EVSTAT []] s t ∧
      (s.mp.rlNew < 256 → more = [] ∧ t.ringLog = (e :: s.ringLog).take 256 ∧ t.evSeq = s.evSeq + 1 ∧
        t.mp = { s.mp with rlNew := s.mp.rlNew + 1 } ∧ t.fld F.FE_EVSTAT.QDEPTH [] = s.evq.length + 1)) ∧
    (1024 ≤ s.evq.length → t.evq = s.evq ∧ RegsBut [regAddr .FE_EVSTAT []] s t ∧
      (blk ≠ 1 → t = { s with regs := t.regs, evDrop := s.evDrop + 1 } ∧ t.fld F.FE_EVSTAT.LOST [] = lost) ∧
      (blk = 1 → s.mp.rlNew < 256 → t.fld F.FE_EVSTAT.LOST [] = lost ∧
        ∃ e : Event, e.code = BitVec.ofNat 16 code ∧ t.ringLog = (e :: s.ringLog).take 256))) ∧
  (∀ s : State, s.coreOn = true →
    ((s.fld F.FE_CTL.EN [] = 0 ∨ s.evq = []) → exec .eventAppend s = .next s) ∧
    (∀ e r, s.fld F.FE_CTL.EN [] = 1 → s.evq = e :: r → r.length < 1024 → Runs .eventAppend s fun t =>
      t.fld F.FE_EVSTAT.WIDX [] = (e.seq + 1).toNat ∧ t.cl = s.cl ∧ RegsBut [regAddr .FE_EVSTAT []] s t ∧
      (s.evDrop = 0 → t.evq = r) ∧ (0 < s.evDrop → ∃ x more, t.evq = r ++ x :: more ∧ x.code = 0x0001 ∧
        x.arg0 = BitVec.ofNat 64 s.evDrop ∧ (s.mp.rlNew < 256 → more = [] ∧ t.evDrop = 0))))

/-- The next manifest of an idle partition is fetched from its ring, and its checks end it in their order or let it
load. For a clocked die: with the front end enabled, the fetch of an idle partition that is neither halted nor
dissolving takes the ring that precedence gives, advances its HEAD, records ring and sequence number, and enters CHECK
with the 128 bytes read, or stays in FETCH, parked, on a fault; a fetch that had parked reads again. In CHECK a wrong
CRC closes the manifest with STATUS 1, a malformed one with STATUS 2, a NOP loads at once, a voyage of another shape
closes with STATUS 3 and one of another tally range with STATUS 4; a faulting list parks it; a RELEASE with a bad list
closes with STATUS 6, and else loads; a privileged partition without clusters waits where it may claim none. One that
waits claims the first free rectangle, after those of lower number; a batch with enough eligible streams is told to
SLIST. In other states none of these does anything, and none but a claim changes a cluster. -/
def Obligations.ManifestsAreFetchedAndChecked : Prop :=
  ∀ (s : State) (p : Fin 16), s.coreOn = true →
    let f := s.front p.val
    let st := s.fld F.FE_PSTAT.STATE [p.val]
    let m := f.man
    let clean := fun (t : State) => t.cl = s.cl ∧ t.pt = s.pt
    (∀ d : Fetched,
      let first := st = 1 ∧ f.halt = false ∧ f.dissolving = false
      let again := st = 2 ∧ f.parked = none
      (s.fld F.FE_CTL.EN [] = 0 ∨ ¬again ∧ (¬first ∨ s.pickRing p.val = none) → exec (.manifestFetch p d) s = .next s) ∧
      ∀ r seq, s.fld F.FE_CTL.EN [] = 1 → (first ∧ s.pickRing p.val = some r ∧ seq = s.fld F.FE_RING_IDX.HEAD [r] ∨
          again ∧ r = s.fld F.FE_PSTAT.RING [p.val] ∧ seq = s.fld F.FE_PSTAT.SEQ [p.val]) →
        Runs (.manifestFetch p d) s fun t => clean t ∧ t.fld F.FE_PSTAT.RING [p.val] = r ∧ t.fld F.FE_PSTAT.SEQ [p.val] = seq ∧
          t.fld F.FE_RING_IDX.HEAD [r] = (if st = 1 then (seq + 1) % 2 ^ 32 else s.fld F.FE_RING_IDX.HEAD [r]) ∧
          match s.feFetch p.val (s.slotVa r seq) 128 d with
          | .bytes b => t.fld F.FE_PSTAT.STATE [p.val] = 3 ∧ (t.front p.val).man = slice b 0 128 ∧ (t.front p.val).parked = none
          | .chartFault c l a _ => t.fld F.FE_PSTAT.STATE [p.val] = 2 ∧ (t.front p.val).parked = some ⟨0, c.toNat, l.toNat, a.toNat⟩
          | .memErr => t.fld F.FE_PSTAT.STATE [p.val] = 2 ∧ (t.front p.val).parked = some ⟨0, 7, 7, s.slotVa r seq⟩) ∧
    (∀ x : CheckFetch,
      (st ≠ 3 ∨ f.parked ≠ none ∨ f.gather = true → exec (.manifestCheck p x) s = .next s) ∧
      (st = 3 → f.parked = none → f.gather = false →
      let checks := fun (P : State → Prop) => Runs (.manifestCheck p x) s fun t => clean t ∧ P t
      let closes := fun (n : Nat) => checks fun t => t.fld F.FE_PSTAT.STATE [p.val] = 7 ∧
        (t.front p.val).fail = some (endStatus n) ∧
        t.fld F.FE_ERRCNT.REFUSED [] = satAdd F.FE_ERRCNT.REFUSED.w (s.fld F.FE_ERRCNT.REFUSED []) 1
      (crc32 (slice m 0 0x7C) ≠ leAt m 0x7C 4 → closes 1) ∧
      (crc32 (slice m 0 0x7C) = leAt m 0x7C 4 →
        (s.manFormat p.val m = false → closes 2) ∧
        (s.manFormat p.val m = true →
          (manKind m = 0 → checks fun t => t.fld F.FE_PSTAT.STATE [p.val] = 4) ∧
          (manKind m ≠ 0 → f.priv = true → (s.part p.val).cls = [] → s.claimBefore p.val = true ∨ s.findRect f.w f.h = none →
            checks fun t => t.fld F.FE_PSTAT.STATE [p.val] = 3 ∧ (t.front p.val).waiting = true) ∧
          (f.priv = false ∨ (s.part p.val).cls ≠ [] →
            let va := leAt m 0x20 8
            let n := leAt m 0x1C 2
            let list := if n = 0 then Fetched.bytes [] else s.feFetch p.val va (32 * n) x.blist
            (manKind m = 1 → leAt m 6 1 ≠ f.w ∨ leAt m 7 1 ≠ f.h → closes 3) ∧
            (manKind m = 1 → leAt m 6 1 = f.w → leAt m 7 1 = f.h →
              leAt m 0x50 2 ≠ s.fld F.TDE_PRANGE.BASE [p.val] ∨ s.fld F.TDE_PRANGE.CNT [p.val] < leAt m 0x52 2 → closes 4) ∧
            (manKind m = 3 → match list with
              | .chartFault c l a _ => checks fun t => t.fld F.FE_PSTAT.STATE [p.val] = 3 ∧
                  (t.front p.val).parked = some ⟨1, c.toNat, l.toNat, a.toNat⟩
              | .memErr => checks fun t => t.fld F.FE_PSTAT.STATE [p.val] = 3 ∧ (t.front p.val).parked = some ⟨1, 7, 7, va⟩
              | .bytes b => (s.berthsOk p.val 3 (entries b 32 n) = false → closes 6) ∧
                  (s.berthsOk p.val 3 (entries b 32 n) = true → checks fun t => t.fld F.FE_PSTAT.STATE [p.val] = 4 ∧
                    (t.front p.val).berths = entries b 32 n))))))) ∧
    (let may := st = 3 ∧ f.waiting = true ∧ f.priv = true ∧ (s.part p.val).cls = [] ∧ s.claimBefore p.val = false
     (¬may ∨ s.findRect f.w f.h = none → exec (.privilegedClaim p) s = .next s) ∧
     ∀ x y, may → s.findRect f.w f.h = some (x, y) → Runs (.privilegedClaim p) s fun t =>
      (t.part p.val).cls = rectClusters 0 0 x y f.w f.h ∧ (t.front p.val).x0 = x ∧ (t.front p.val).y0 = y ∧
      (t.front p.val).waiting = false ∧ ∀ c ∈ rectClusters 0 0 x y f.w f.h, t.inPart c = true ∧ t.partOf c = p.val ∧
        t.fld F.CLU_STSTAT.CGEN [c] = s.fld F.FE_PSTAT.GEN [p.val]) ∧
    (∀ waited : List Nat,
      let ok := f.gq.filter (fun q => decide (streamPos q.2 + manAdv m ≤ streamLimit q.2))
      (st ≠ 3 ∨ f.gather = false → exec (.batchClose p waited) s = .next s) ∧
      (st = 3 → f.gather = true → 0 < manNstrm m → manNstrm m ≤ ok.length → Runs (.batchClose p waited) s fun t =>
        ∃ ix : List Nat, ix.length = manNstrm m ∧ (∀ i ∈ ix, ∃ q ∈ ok, q.1 = i) ∧
          .va p.val true (leAt m 0x48 8) (4 * manNstrm m) (ix.flatMap (leBytes 4)) ∈ t.out) ∧
      (st = 3 → f.gather = true → ok = [] → Runs (.batchClose p waited) s fun t => t = s.modFront p.val (fun f => { f with gq := [] }) ∨
        manNstrm m = 0))

/-- A voyage loads, is ready, starts every pilot on one ccy, and ends with its record written and delivered. For a
clocked die: the load of a berth that has ended makes it RESIDENT; in LOAD with every berth placed, a NOP, LOAD or
RELEASE manifest closes with STATUS 0, the last releasing what it lists; a voyage waits for its program's bytes, then
closes with STATUS 9 where a window will not open, and else loads every cluster's program; with its PRE descriptors
ended it is READY; a READY voyage starts outside a tide, where no droop delays it, from schedule cycle 0, with every
pilot in RUN at its entry point, one of several dies once every notice is there; the voyage whose pilots have all
ended, and nothing of which is under way, is over, and once no stream write is left unanswered its record is written
at its place; so is that of one that ended otherwise, once its pieces are back; its delivery passes DONE over it and
leaves the partition idle. In other states nothing happens. -/
def Obligations.VoyagesLoadStartAndEnd : Prop :=
  ∀ (s : State) (p : Fin 16), s.coreOn = true →
    let f := s.front p.val
    let q := s.part p.val
    let st := s.fld F.FE_PSTAT.STATE [p.val]
    let cs := s.dirClusters p.val
    let state := fun (t : State) => t.fld F.FE_PSTAT.STATE [p.val]
    (∀ (c : Nat) (h : Fin 128), s.partOf c = p.val →
      let mine := f.loading.find? (fun x => x.1 == c && x.2.1 == h.val)
      let may := s.inPart c = true ∧ s.loadLeft p.val c h.val = false ∧ (st = 4 ∨ s.fld F.FLT_PREC.STATE [p.val] ≠ 0)
      (mine = none ∨ ¬may → exec (.berthLoadComplete c h) s = .next s) ∧
      ∀ x, mine = some x → may → c < 1250 → f.toPlace = [] → Runs (.berthLoadComplete c h) s fun t =>
        t.fld F.CLU_BERTH.RES [c, h.val] = 1 ∧ t.fld F.CLU_BERTH.PSN [c, h.val] = 0 ∧
        (t.front p.val).loading = f.loading.filter (· != x) ∧ RegsBut [regAddr .CLU_BERTH [c, h.val], regAddr .FE_EVSTAT []] s t) ∧
    (st ≠ 4 ∨ f.toPlace ≠ [] ∨ f.loading ≠ [] → exec (.loadComplete p) s = .next s) ∧
    (st = 4 → f.toPlace = [] → f.loading = [] →
      (manKind f.man ≠ 1 → Runs (.loadComplete p) s fun t => state t = 7 ∧ (t.front p.val).fail = some (endStatus 0) ∧
        (manKind f.man = 3 → ∀ e ∈ f.berths, ∀ c ∈ s.entryRect p.val e 6, c < 1250 → leAt e 0 1 < 128 →
          s.bit F.CLU_BERTH.VAL [c, leAt e 0 1] = true → t.bit F.CLU_BERTH.ZPND [c, leAt e 0 1] = true)) ∧
      (manKind f.man = 1 → f.opening = true →
        (s.preLeft p.val = true → exec (.loadComplete p) s = .next s.cohPump) ∧
        (s.preLeft p.val = false → Runs (.loadComplete p) s fun t => state t = 5 ∧ t.cl = s.cl ∧ (t.front p.val).ready = true)) ∧
      (manKind f.man = 1 → f.opening = false →
        let left := f.progLeft - s.bucketBytes p.val
        (0 < left → Runs (.loadComplete p) s fun t => state t = 4 ∧ (t.front p.val).progLeft = left ∧ t.cl = s.cl) ∧
        (left = 0 →
          let r := (((s.payLoad p.val).loadProgram p.val).writeParams p.val).openWindows p.val
          (r.2 = false → Runs (.loadComplete p) s fun t => state t = 7 ∧ (t.front p.val).fail = some (endStatus 9)) ∧
          (r.2 = true → cs.Nodup → (∀ c ∈ cs, c < 1250) → Runs (.loadComplete p) s fun t => (t.front p.val).opening = true ∧
            (t.front p.val).fetch = f.stage 1 ∧ (state t = 4 ∨ state t = 5) ∧ ∀ k c, cs[k]? = some c → t.pilot c = 1 ∧
              let d := dirEntry f.image k
              (t.clu c).ins.bytes 0 (32 * leAt d 4 2) = slice f.image (leAt d 0 4) (32 * leAt d 4 2))))) ∧
    (st ≠ 5 ∨ s.fld F.TDE_TSTAT.STATE [] ≠ 0 ∨ s.droopHolds p.val = true → exec (.voyageStart p) s = .next s) ∧
    (st = 5 → s.fld F.TDE_TSTAT.STATE [] = 0 → s.droopHolds p.val = false →
      let met := s.members p.val = [] ∨ (s.startJoined p.val).2 = true
      (¬met → Runs (.voyageStart p) s fun t => state t = 5 ∧ (t.part p.val).joinAt = some startJoin ∧
        (t.part p.val).live = q.live ∧ t.cl = s.cl) ∧
      (met → cs.Nodup → (∀ c ∈ cs, c < 1250) → Runs (.voyageStart p) s fun t =>
        state t = 6 ∧ (t.part p.val).live = true ∧ (t.part p.val).scyc = 0 ∧ (t.part p.val).pccy = 0 ∧
        ∀ k c, cs[k]? = some c → let entry := leAt (dirEntry f.image k) 6 2 % 1024
          t.pilot c = 2 ∧ t.fld F.CLU_PSTAT.PC [c] = entry ∧ t.fld F.CLU_PSTAT.ENTRY [c] = entry ∧
          t.word .CLU_PSEED [c] = seedOf f % 2 ^ 64 ∧ (t.clu c).look = [] ∧ (t.clu c).pend = [] ∧
          (∀ n < 64, t.word .CLU_CFLAG [c, n] = 0) ∧ (∀ w < 28, t.word .CLU_WPOS [c, w] = 0))) ∧
    (let closed := fun (e : VEnd) (t : State) => state t = 7 ∧
      ((∃ x ∈ t.seOut, x.2 = p.val) → ∃ ran, (t.front p.val).closing = some (e, ran)) ∧
      ((∀ x ∈ t.seOut, x.2 ≠ p.val) → ∃ b : Bytes, (t.front p.val).record = some b ∧ leAt b 4 1 = e.status % 256 ∧
        leAt b 0 4 = s.fld F.FE_PSTAT.SEQ [p.val] ∧ .va p.val true (s.recordVa p.val) 64 b ∈ t.out)
     let runs := fun (e : VEnd) (P : State → Prop) => Runs (.voyageComplete p) s fun t => closed e t ∧ P t
     let after := (s.dropDescs p.val).takeWaits
     (st ≠ 6 ∧ st ≠ 7 ∨ st = 6 ∧ s.allEnded p.val = false ∨ st = 7 ∧ f.record ≠ none →
       exec (.voyageComplete p) s = .next s) ∧
     (st = 6 → s.allEnded p.val = true → runs (endStatus 0) fun t => (t.part p.val).live = false) ∧
     (st = 7 → f.record = none →
       (∀ e ran, f.closing = some (e, ran) → runs e fun t => t.cl = s.cl) ∧
       (f.closing = none →
         (after.noFlight p.val = false ∨ q.fin = none ∧ f.fail = none → exec (.voyageComplete p) s = .next after) ∧
         (after.noFlight p.val = true →
           (∀ e, q.fin = some e → runs e fun _ => True) ∧
           (∀ e, q.fin = none → f.fail = some e → runs e fun _ => True))))) ∧
    (f.record = none → exec (.recordDelivered p) s = .next s) ∧
    (∀ b : Bytes, f.record = some b → Runs (.recordDelivered p) s fun t =>
      t.fld F.FE_RING_IDX.DONE [s.fld F.FE_PSTAT.RING [p.val]] = (s.fld F.FE_PSTAT.SEQ [p.val] + 1) % 2 ^ 32 ∧
      state t = 1 ∧ (t.front p.val).record = none)

/-- The next descriptor of a manifest is fetched and checked, and the oldest SELFENQ is copied to the self ring or
refused. For a clocked die: in LOAD or RUN the descriptor fetched next is placed where its address is a multiple of 64
and its checks pass, counts as failed where they do not or memory answers with an error, and parks the front end on a
chart fault; with none to fetch, one parked, or in another state nothing happens. The oldest SELFENQ not yet copied
leaves the queue; where its bounds, its depth and the self ring allow it, its image is written at STAIL, which
advances, and it is counted as accepted; else it is counted as refused in SEREF; with none queued nothing happens. -/
def Obligations.DescriptorsAndSelfEnqueuesAreTaken : Prop :=
  ∀ (s : State) (p : Fin 16), s.coreOn = true →
    let f := s.front p.val
    let may := f.fetch ≠ [] ∧ f.parked = none ∧ s.fld F.FE_PSTAT.STATE [p.val] ∈ [4, 6]
    (∀ x, ¬may → exec (.descriptorFetch p x) s = .next s) ∧
    (∀ stage eng dva r x, may → f.fetch = (stage, eng, dva) :: r →
      let d := fun (b : Bytes) => Desc.mk 0 p.val (s.fld F.FE_PSTAT.GEN [p.val]) dva b stage none eng 0 0 false none 0 0
      let done := s.modFront p.val (fun f => { f with fetch := r })
      let fails := fun (u : State) (body : Bytes) (st : Nat) =>
        exec (.descriptorFetch p x) s = .next ((u.descFailed (d body) locNone st 0).cohPump) ∧
        (done.descFailed (d body) locNone st 0).fld F.FRY_CNT.FAIL [] = satAdd F.FRY_CNT.FAIL.w (s.fld F.FRY_CNT.FAIL []) 1
      match s.feFetch p.val dva 64 x with
      | .bytes b =>
        let body := slice b 0 64
        let ok := dva % 64 = 0 ∧ done.descOk (d body) = true
        (ok → Runs (.descriptorFetch p x) s fun t => (t.front p.val).fetch = r ∧ (t.front p.val).place = f.place ++ [d body] ∧
          t.regs = s.regs ∧ t.cl = s.cl) ∧
        (¬ok → (bitAt (d body).flags 2 && (d body).doneva % 16 == 0) = false → fails done body 1)
      | .memErr => fails done [] 5
      | .chartFault c l a _ => Runs (.descriptorFetch p x) s fun t => (t.front p.val).fetch = f.fetch ∧
        (t.front p.val).parked = some ⟨2, c.toNat, l.toNat, a.toNat⟩ ∧ t.cl = s.cl) ∧
    ((s.part p.val).selfq = [] → exec (.selfenqCopy p) s = .next s) ∧
    (∀ a b c h off rest, (s.part p.val).selfq = (a, b, c, h, off) :: rest →
      (∀ r, s.selfRefused p.val = none → s.selfRing p.val = some r → Runs (.selfenqCopy p) s fun t =>
        (t.part p.val).selfq = rest ∧ (t.front p.val).seacc = f.seacc + 1 ∧
        t.fld F.FE_RING_STL.STAIL [r] = (s.fld F.FE_RING_STL.STAIL [r] + 1) % 2 ^ 32 ∧
        (.va p.val true (s.slotVa r (s.fld F.FE_RING_STL.STAIL [r])) 128 (selfImage (((s.clu c).store (s.berthStore c h)).bytes
          (s.berthBase c h + off) 128) (leAt f.man 4 2))) ∈ t.out ∧
        RegsBut [regAddr .FE_RING_STL [r], regAddr .FE_EVSTAT []] s t) ∧
      (∀ k, s.selfRefused p.val = some k → Runs (.selfenqCopy p) s fun t => (t.part p.val).selfq = rest ∧
        (t.front p.val).seref = f.seref + 1 ∧ t.fld F.FE_ERRCNT.SEREF [] = satAdd F.FE_ERRCNT.SEREF.w (s.fld F.FE_ERRCNT.SEREF []) 1 ∧
        RegsBut [regAddr .FE_ERRCNT [], regAddr .FE_EVSTAT []] s t))

/-- Each stream command moves its entry as the table of stream commands says, and reports its result. For a clocked
die: with a command waiting for its entry, that one runs, and any other is BUSY; a requester without a partition's
right is DENIED. Otherwise the command runs on the entry of the cache, or as fetched, ends not BUSY with OP 0, and:
without the right to the entry's partition (of a FREE one, anyone; for WRITE, to the new one as well) is RES 4; READ
shows it in FE_SDATA; WRITE of an entry that is not ACTIVE with a legal new state stores it, of an ACTIVE one changes
what R312 lets it with RES 1, and is else RES 2; PAUSE turns IDLE to PAUSED and marks an ACTIVE one to pause; RESUME
turns PAUSED to IDLE and takes the mark off; FREE clears one that is not ACTIVE; FLUSH drops it from the cache; RES 2
where the table refuses, with the entry as it was. -/
def Obligations.StreamCommandsChangeTheirEntry : Prop :=
  ∀ (s : State) (q : Requester) (ix : BitVec 21) (g : Bytes), s.coreOn = true →
    let cmds := [Instr.scmdRead q ix g, .scmdWrite q ix g, .scmdPause q ix g, .scmdResume q ix g, .scmdFree q ix g, .scmdFlush q ix g]
    (∀ w, s.scmdq = some w → ∀ k < 6, ∀ i, cmds[k]? = some i →
      exec i s = .next (if s.fld F.FE_SCMD.OP [] = k + 1 ∧ s.fld F.FE_SCMD.INDEX [] = ix.toNat then s.scmdDone w (k + 1) ix.toNat g
        else { s with lastStat := 2 })) ∧
    (s.scmdq = none → isFw q = false → (s.rightsOf q).pmask = 0 → ∀ i ∈ cmds, Runs i s (Denied s)) ∧
    (s.scmdq = none → isFw q = true ∨ (s.rightsOf q).pmask ≠ 0 → s.scache.length < 16384 →
    let got := s.streamGet ix.toNat g
    let e := got.2
    let st := streamState e
    let new := s.sdata
    let right := fun (x : Bytes) => isFw q = true ∨ (s.rightsOf q).ofPart (streamPart x) = true
    let ends := fun (i : Instr) (res : Nat) (P : State → Prop) => Runs i s fun t => P t ∧ t.fld F.FE_SCMD.BUSY [] = 0 ∧
      t.fld F.FE_SCMD.OP [] = 0 ∧ t.fld F.FE_SCMD.RES [] = res ∧ t.fld F.FE_SCMD.INDEX [] = ix.toNat ∧ t.lastStat = 0 ∧ t.cl = s.cl ∧
      t.scmdq = none
    let has := fun (n : Bytes) (t : State) => (t.scache.find? (fun x => x.1 == ix.toNat)).map (·.2) = some n
    let same := fun (t : State) => t.scache = got.1.scache ∧ t.fe = s.fe
    (st ≠ 0 → ¬right e → ∀ i ∈ cmds, ends i 4 fun t => t.scache = s.scache ∧ t.fe = s.fe) ∧
    (st = 0 ∨ right e →
      (ends (.scmdRead q ix g) 0 fun t => same t ∧ ∀ k < 4, t.fld F.FE_SDATA.DATA [k] = leAt e (8 * k) 8) ∧
      (¬right new → ends (.scmdWrite q ix g) 4 fun t => t.scache = s.scache ∧ t.fe = s.fe) ∧
      (right new →
        let ns := streamState new
        (st = 2 → ends (.scmdWrite q ix g) 1 (has (overwrite (overwrite e 9 (slice new 9 1)) 24 (slice new 24 8)))) ∧
        (st ≠ 2 → (ns ∈ [1, 3] ∨ ns = 4 ∧ st ≠ 0) → ends (.scmdWrite q ix g) 0 (has new)) ∧
        (st ≠ 2 → ¬(ns ∈ [1, 3] ∨ ns = 4 ∧ st ≠ 0) → ends (.scmdWrite q ix g) 2 same)) ∧
      (st = 1 → ends (.scmdPause q ix g) 0 (has (streamMark e 3 (streamFlags e)))) ∧
      (st = 2 → ends (.scmdPause q ix g) 0 (has (streamMark e 2 (setBit (streamFlags e) 1 true)))) ∧
      (st ∉ [1, 2] → ends (.scmdPause q ix g) (if st = 3 then 0 else 2) same) ∧
      (st = 0 → ends (.scmdResume q ix g) 2 same) ∧
      (st ≠ 0 → ends (.scmdResume q ix g) 0 (has (streamMark e (if st = 3 then 1 else st) (setBit (streamFlags e) 1 false)))) ∧
      (st = 2 → ends (.scmdFree q ix g) 2 same ∧ ends (.scmdFlush q ix g) 2 same) ∧
      (st = 0 → ends (.scmdFree q ix g) 0 same) ∧
      (st ∉ [0, 2] → ends (.scmdFree q ix g) 0 (has (List.replicate 32 0))) ∧
      (st ≠ 2 → ends (.scmdFlush q ix g) 0 fun t => t.scache.find? (fun x => x.1 == ix.toNat) = none)))

/-- HALT, GO, ABORT and RESET act on an existing partition, and a drained generation brings it back to idle. For a
clocked die: a requester without the right is DENIED; of a partition in RESET each command is BUSY, and one that does
not exist or dissolves takes none. Else: HALT and GO set and clear its halt alone; ABORT of a manifest that does not
sail closes it with STATUS 0x14, of one that sails makes it stop 12 schedule cycles ahead, and of nothing does
nothing; RESET of one that does not sail raises its generation by one and leaves it in RESET, without a record and
with its rings disabled, while the old generation drains, and of one that sails first makes it stop 12 schedule cycles
ahead; at generation 65,535 RESET is INVALID. When the engines report the old generation drained, DGEN takes it and
the partition of a reset is idle, one that dissolves gone; a drain that overruns abandons its reads, counted in ABND;
with nothing to drain nothing happens. -/
def Obligations.PartitionCommandsActOnTheirPartition : Prop :=
  ∀ (s : State) (q : Requester) (p : Fin 16), s.coreOn = true →
    let st := s.fld F.FE_PSTAT.STATE [p.val]
    let f := s.front p.val
    let k := s.part p.val
    let cmds := [Instr.pcmdHalt q p, .pcmdGo q p, .pcmdAbort q p, .pcmdReset q p]
    let right := isFw q = true ∨ (s.rightsOf q).ofPart p.val = true
    (¬right → ∀ i ∈ cmds, Runs i s (Denied s)) ∧
    (right → st = 8 → ∀ i ∈ cmds, exec i s = .next { s with lastStat := 2 }) ∧
    (right → st = 0 ∨ st ≠ 8 ∧ f.dissolving = true → ∀ i ∈ cmds, exec i s = .next { s with lastStat := 0 }) ∧
    (right → st ∉ [0, 8] → f.dissolving = false →
      (exec (.pcmdHalt q p) s = .next { s.modFront p.val (fun f => { f with halt := true }) with lastStat := 0 }) ∧
      (exec (.pcmdGo q p) s = .next { s.modFront p.val (fun f => { f with halt := false }) with lastStat := 0 }) ∧
      (k.live = false → 2 ≤ st → st ≤ 5 → Runs (.pcmdAbort q p) s fun t => t.lastStat = 0 ∧ t.cl = s.cl ∧
        t.fld F.FE_PSTAT.STATE [p.val] = 7 ∧ (t.front p.val).fail = some (endStatus 0x14)) ∧
      (k.live = false → ¬(2 ≤ st ∧ st ≤ 5) → exec (.pcmdAbort q p) s = .next { s with lastStat := 0 }) ∧
      (s.voyaging p.val = true → k.stopAt = none → exec (.pcmdAbort q p) s =
        .next { s.modPart p.val (fun k => { k with stopAt := some (k.cycAt 12, endStatus 0x14) }) with lastStat := 0 }) ∧
      (k.live = true → s.voyaging p.val = false → Runs (.pcmdAbort q p) s fun t => t.lastStat = 0 ∧
        (t.part p.val).live = false ∧ (t.part p.val).fin = some (endStatus 0x14)) ∧
      (s.fld F.FE_PSTAT.GEN [p.val] = 65535 → exec (.pcmdReset q p) s = .next { s with lastStat := 3 }) ∧
      (s.fld F.FE_PSTAT.GEN [p.val] < 65535 →
        (s.voyaging p.val = true → k.stopAt = none → Runs (.pcmdReset q p) s fun t => t.lastStat = 0 ∧ t.cl = s.cl ∧
          t.fld F.FE_PSTAT.STATE [p.val] = 8 ∧ (t.front p.val).resetting = true ∧ (t.part p.val).live = true ∧
          (t.part p.val).stopAt = some (k.cycAt 12, endStatus 0) ∧ t.fld F.FE_PSTAT.GEN [p.val] = s.fld F.FE_PSTAT.GEN [p.val]) ∧
        (s.voyaging p.val = false → Runs (.pcmdReset q p) s fun t => t.lastStat = 0 ∧
          t.fld F.FE_PSTAT.STATE [p.val] = 8 ∧ t.fld F.FE_PSTAT.GEN [p.val] = s.fld F.FE_PSTAT.GEN [p.val] + 1 ∧
          (t.part p.val).live = false ∧ (t.part p.val).fin = none ∧ (t.front p.val).record = none ∧ (t.front p.val).man = [] ∧
          ∀ r < 64, s.fld F.FE_RING_CFG.PART [r] = p.val → t.fld F.FE_RING_CFG.EN [r] = 0))) ∧
    (s.drains.find? (fun d => d.1 == p.val) = none → exec (.drainOverrun p) s = .next s ∧
      (f.resetting = false ∨ k.live = true → ∀ n, exec (.generationDrained p n) s = .next s)) ∧
    (∀ (n : Nat) (d : Nat × Nat), s.drains.find? (fun d => d.1 == p.val) = some d →
      let after := fun (t : State) => t.fld F.FRY_PDRAIN.DGEN [p.val] = d.2 % 2 ^ 16 ∧
        t.fld F.FE_PSTAT.STATE [p.val] = (if f.dissolving then 0 else 1) ∧ t.drains = s.drains.filter (fun d => d.1 != p.val) ∧
        (f.dissolving = true → (t.part p.val).cls = [] ∧ t.fld F.CHT_ROOT.VAL [p.val] = 0)
      (s.drained p.val = true → Runs (.generationDrained p n) s after ∧ exec (.drainOverrun p) s = .next s) ∧
      (s.drained p.val = false → exec (.generationDrained p n) s = .next s ∧ Runs (.drainOverrun p) s fun t => after t ∧
        s.fld F.FRY_PDRAIN.ABND [p.val] ≤ t.fld F.FRY_PDRAIN.ABND [p.val]))

/-- CREATE sets up a partition that passes its checks, DISSOLVE gives one up, and their RESULT tells which check
failed. For a clocked die: outside a tide, with the command written, a CREATE whose checks pass assigns its tallies,
its share of the ferries, its chart root and power fraction, gives a partition of one owner the clusters of its
rectangle (a privileged one has none yet) and leaves it idle with RESULT 0; one that a check fails changes only RESULT
and OP; a DISSOLVE of an idle partition without an enabled ring raises its generation and starts to drain, any other
is refused with its RESULT; once the clusters it gave up are clear, RESULT is 0; a privileged partition with nothing
to do gives its clusters up when HOLDT runs out. Without the command, within a tide, or where its turn has not come,
nothing happens. -/
def Obligations.PartitionsAreCreatedAndDissolved : Prop :=
  ∀ s : State, s.coreOn = true →
    let r := s.createReq
    let quiet := s.fld F.TDE_TSTAT.STATE [] = 0
    let result := fun (t : State) => leNat ((SMap.find t.od (0x3100 * 256 + 16)).getD [])
    let refused := fun (i : Instr) (n : Nat) => Runs i s fun t => result t = n % 256 ∧ t = { s with pcmd := none, od := t.od }
    let p := s.odNat 0x3100 2 0
    ((∀ c, s.pcmd = some c → c.op ≠ 1 ∨ ¬quiet) → exec .create s = .next s) ∧
    ((∀ c, s.pcmd = some c → c.op ≠ 2 ∨ ¬quiet ∨ c.begun = true) → exec .dissolve s = .next s) ∧
    (∀ c, s.pcmd = some c → c.op = 1 → quiet →
      (s.createCheck r ≠ 0 → refused .create (s.createCheck r)) ∧
      (s.createCheck r = 0 → Runs .create s fun t => result t = 0 ∧ t.pcmd = none ∧ t.cl = s.cl ∧
        t.fld F.FE_PSTAT.STATE [r.part] = 1 ∧ t.fld F.FE_PSTAT.GEN [r.part] = 0 ∧
        t.fld F.TDE_PRANGE.CNT [r.part] = r.ntally ∧ t.fld F.CHT_ROOT.VAL [r.part] = 1 ∧
        t.fld F.CHT_ROOT.BASE [r.part] = r.root / 4096 ∧ (t.front r.part).priv = (r.mode == 1) ∧
        (r.mode = 1 → (t.part r.part).cls = []) ∧
        (r.mode = 0 → ∃ x y, (t.part r.part).cls = rectClusters 0 0 x y r.w r.h) ∧
        (∀ k ∈ (t.part r.part).cls, t.partOf k = r.part ∧ t.inPart k = true ∧ s.inPart k = false) ∧
        (∀ y ∈ t.tallyRange r.part, t.fld F.TDE_TCFG.OWNER [y] = r.part ∧ t.fld F.TDE_TCFG.ASG [y] = 1))) ∧
    (∀ c, s.pcmd = some c → c.op = 2 → quiet → c.begun = false →
      (s.dissolveRefused p ≠ 0 → refused .dissolve (s.dissolveRefused p)) ∧
      (s.dissolveRefused p = 0 → Runs .dissolve s fun t => (t.front p).dissolving = true ∧
        t.fld F.FE_PSTAT.GEN [p] = (s.fld F.FE_PSTAT.GEN [p] + 1) % 2 ^ 16 ∧
        t.pcmd = some ⟨2, p, [], (s.fld F.FE_PSTAT.GEN [p] + 1) % 2 ^ 16, true⟩)) ∧
    (∀ z : Fin 16,
      let clear := fun (c : PartCmd) => c.op = 2 ∧ c.part = z.val ∧ s.exists_ z.val = false ∧
        c.cls.all (fun x => !(s.clu x).leaving) = true
      ((∀ c, s.pcmd = some c → ¬clear c) → exec (.dissolveComplete z) s = .next s) ∧
      (∀ c, s.pcmd = some c → clear c → Runs (.dissolveComplete z) s fun t => result t = 0 ∧ t.pcmd = none ∧
        RegsBut [regAddr .FE_EVSTAT []] s t)) ∧
    (∀ z : Fin 16,
      let spent := (s.front z.val).priv = true ∧ s.fld F.FE_PSTAT.STATE [z.val] = 1 ∧ (s.part z.val).cls ≠ [] ∧
        (s.front z.val).dissolving = false ∧ (s.ringsOf z.val).any s.ringPending = false
      (¬spent → exec (.holdtExpiry z) s = .next s) ∧
      (spent → (∀ k ∈ (s.part z.val).cls, k < 1250) → Runs (.holdtExpiry z) s fun t => (t.part z.val).cls = [] ∧
        ∀ k ∈ (s.part z.val).cls, t.inPart k = false ∧ (t.clu k).leaving = true ∧ t.fld F.CLU_STSTAT.ZW [k] = 1))

/-- How a descriptor enters its engine, becomes active, is stolen, parks and is resolved. For a clocked die: a checked
descriptor enters, as the newest of the die, the queue of the engine R317 gives it, once that has room. While chunks
may begin, an engine at a chunk boundary makes active the ready descriptor of highest precedence, the oldest of
equals, in place of an active one of lower precedence or not ready, and otherwise leaves things alone; an idle engine
steals one that no engine has begun, within four engines. PREEMPT parks the active descriptor at a chunk boundary with
CAUSE 1, or marks it to park at the next. RETRY puts a parked one back in its queue, ABORT ends it; a command that
names an empty slot has RES 1 where a reset emptied it, else 2, one without the right RES 3; for the front end's slot
they act on its parked fetch. A refill adds the scaled rate of each partition up to its BURST. -/
def Obligations.FerryEnginesPlaceChooseStealAndPark : Prop :=
  ∀ (s : State) (q : Requester) (e : Fin 64), s.coreOn = true →
    let k := s.eng e.val
    let right := fun (p : Nat) => isFw q || (s.rightsOf q).ofPart p
    let prio := fun (d : Desc) => s.fld F.FRY_PRATE.PRIO [d.part]
    let okd := fun (d : Desc) => decide (d.off < d.len) && d.fail.isNone && s.ready d
    let chosen := fun (can : Desc → Bool) (t : State) => ∃ d ∈ k.q, can d = true ∧ (t.eng e.val).act = some { d with begun := true } ∧
      (∀ x ∈ (t.eng e.val).q, x.uid ≠ d.uid) ∧
      ∀ x ∈ k.q, can x = true → prio x < prio d ∨ (prio x = prio d ∧ d.uid ≤ x.uid)
    (∀ p : Fin 16, (s.front p.val).place = [] → exec (.descriptorPlacement p) s = .next s) ∧
    (∀ (p : Fin 16) (d : Desc) (r : List Desc), (s.front p.val).place = d :: r →
      (s.placeAt d = some e.val → k.q.length < 64 → Runs (.descriptorPlacement p) s fun t =>
        (t.eng e.val).q = k.q ++ [{ d with uid := s.nextUid, home := e.val }] ∧
        (t.front p.val).place = r ∧ t.nextUid = s.nextUid + 1 ∧ t.cl = s.cl ∧ ∀ j, j ≠ e.val → t.eng j = s.eng j) ∧
      (s.placeAt d = some e.val → 64 ≤ k.q.length → exec (.descriptorPlacement p) s = .next s) ∧
      (s.placeAt d = none → exec (.descriptorPlacement p) s = .next s)) ∧
    (s.fld F.FRY_CTL.EN [] ≠ 1 ∨ k.chunk = true ∨ s.chunkOpen e.val = false → exec (.engineChoose e) s = .next s) ∧
    (s.fld F.FRY_CTL.EN [] = 1 → k.chunk = false → s.chunkOpen e.val = true →
      (k.act = none → k.freeSlot.isSome = true → k.q.any okd = true → Runs (.engineChoose e) s (chosen okd)) ∧
      (k.act = none → k.freeSlot = none ∨ k.q.any okd = false → exec (.engineChoose e) s = .next s) ∧
      ∀ d, k.act = some d →
        let beats := fun (x : Desc) => okd x && (decide (prio d < prio x) || !okd d)
        (d.len ≤ d.off ∨ d.fail.isSome = true → exec (.engineChoose e) s = .next s) ∧
        (d.off < d.len → d.fail = none →
          (k.freeSlot.isSome = true → k.q.any beats = true → Runs (.engineChoose e) s fun t => chosen beats t ∧
            t.fld F.FRY_CNT.PREEMPT [] = satAdd F.FRY_CNT.PREEMPT.w (s.fld F.FRY_CNT.PREEMPT []) 1 ∧
            ((∀ x ∈ k.q, x.uid ≠ d.uid) → d ∈ (t.eng e.val).q)) ∧
          (k.freeSlot = none ∨ k.q.any beats = false →
            (okd d = true → exec (.engineChoose e) s = .next s) ∧
            (okd d = false → Runs (.engineChoose e) s fun t => (t.eng e.val).act = none ∧ (t.eng e.val).q = d :: k.q ∧
              t.fld F.FRY_CNT.PREEMPT [] = satAdd F.FRY_CNT.PREEMPT.w (s.fld F.FRY_CNT.PREEMPT []) 1)))) ∧
    (let idle := s.fld F.FRY_CTL.EN [] = 1 ∧ s.fld F.FRY_CTL.STEAL [] = 1 ∧ k.act = none ∧ k.q.any s.ready = false ∧
        k.freeSlot.isSome = true ∧ k.q.length < 64
     let near := ∃ v < 64, 1 ≤ engDist e.val v ∧ engDist e.val v ≤ 4 ∧ (s.eng v).q.any (s.stealable e.val) = true
     (idle ∧ near → Runs (.stealAttempt e) s fun t => ∃ v d, engDist e.val v ≤ 4 ∧ d ∈ (s.eng v).q ∧
        s.stealable e.val d = true ∧ d ∈ (t.eng e.val).q ∧ (∀ x ∈ (t.eng v).q, x.uid ≠ d.uid) ∧
        (∀ x ∈ (s.eng v).q, s.stealable e.val x = true → d.uid ≤ x.uid) ∧
        t.fld F.FRY_CNT.STEALS [] = satAdd F.FRY_CNT.STEALS.w (s.fld F.FRY_CNT.STEALS []) 1) ∧
     (¬(idle ∧ near) → exec (.stealAttempt e) s = .next s)) ∧
    (k.act = none → exec (.preempt q e) s = .next { s with lastStat := 0 }) ∧
    (∀ d, k.act = some d →
      (right d.part = false → Runs (.preempt q e) s (Denied s)) ∧
      (right d.part = true →
        (k.freeSlot = none → exec (.preempt q e) s = .next { s with lastStat := 0 }) ∧
        (∀ i, k.freeSlot = some i →
          (k.chunk = false → d.off < d.len → Runs (.preempt q e) s fun t => (t.eng e.val).act = none ∧ t.lastStat = 0 ∧
            (listGet none (t.eng e.val).park i).any (fun x => x.d == d && x.cause == 1) = true) ∧
          (k.chunk = true ∨ d.len ≤ d.off → Runs (.preempt q e) s fun t =>
            t.eng e.val = { k with pre := true } ∧ t.lastStat = 0)))) ∧
    (∀ (i : Fin 8) (x : Park), s.parkAt e.val i.val = some x →
      let n := BitVec.ofNat 7 e.val
      (right x.d.part = true →
        (Runs (.rescmdRetry q n i) s fun t => t.fld F.FRY_RESCMD.RES [] = 0 ∧ t.lastStat = 0 ∧ t.eng e.val =
          { k with park := listSet k.park i.val none, q := x.d :: k.q, xl := k.xl.filter (fun y => y.1 != x.d.uid) }) ∧
        Runs (.rescmdAbort q n i) s fun t => t.fld F.FRY_RESCMD.RES [] = 0 ∧ t.lastStat = 0 ∧
          ∃ y, listGet none (t.eng e.val).park i.val = some y ∧ y.ended = true ∧ ∃ off ≤ x.d.off,
            y.d.fail = some (if x.cause = 1 then 8 else 2, x.code, off)) ∧
      (right x.d.part = false → ∀ c ∈ [Instr.rescmdRetry q n i, .rescmdAbort q n i], Runs c s fun t =>
        t.engs = s.engs ∧ t.fld F.FRY_RESCMD.RES [] = 3 ∧ t.lastStat = 1)) ∧
    (∀ (n : BitVec 7) (i : Fin 8), n.toNat ≠ 0x40 → s.parkAt n.toNat i.val = none →
      ∀ c ∈ [Instr.rescmdRetry q n i, .rescmdAbort q n i], Runs c s fun t => t.engs = s.engs ∧ t.lastStat = 0 ∧
        t.fld F.FRY_RESCMD.RES [] = if s.gone.contains (n.toNat, i.val) then 1 else 2) ∧
    (∀ p, s.parkedFront = some p → right p = true →
      (Runs (.rescmdRetry q 0x40 0) s fun t => t.fld F.FRY_RESCMD.RES [] = 0 ∧ (t.front p).parked = none) ∧
      Runs (.rescmdAbort q 0x40 0) s fun t => t.fld F.FRY_RESCMD.RES [] = 0) ∧
    (Runs .bucketRefill s fun t => t = { s with bucket := t.bucket } ∧ ∀ p < 16, SMap.get 0 t.bucket p =
      if s.fld F.FRY_PRATE.RATE [p] = 0 then SMap.get 0 s.bucket p
      else min (s.bucketCap p) (SMap.get 0 s.bucket p + s.fld F.FRY_PRATE.RATE [p] * min 65536 (s.fld F.FRY_SCALE.SCALE [])))

/-- A piece moves the bytes it names, its answer ends it, a walk translates it, and an ended descriptor leaves its
engine. For a clocked die, with nothing waiting on the ring of the engine: the next piece of a fill to a berth moves
the transfer offset on and, where the remote write is admitted, stores its pattern in exactly the bytes the piece
names, or waits for their banks; an engine with no piece to issue issues none. An answered piece is no longer in
flight, read data goes to the bytes of the berth its piece names, and a memory error or poison marks its descriptor
failed with STATUS 5 at that offset; an answer that no piece waits for changes nothing. A walk that translates gives
the engine the address it waits for, and is over, as is one whose descriptor has gone. A descriptor that has moved
everything and writes no status block leaves the engine, a successful one raising the tally it names; that one waits
while the tide is SEALED. -/
def Obligations.FerryPiecesMoveTheirBytes : Prop :=
  ∀ (s : State) (e : Fin 64), s.coreOn = true → (s.eng e.val).ringHead = none →
    let k := s.eng e.val
    let lands := fun (w : RemoteWrite) (t : State) =>
      let st := s.berthStore w.cluster w.handle
      let b := s.berthBase w.cluster w.handle + w.off
      let n := w.data.length
      (∀ c, c ≠ w.cluster → t.clu c = s.clu c) ∧
      (s.banksIdle w.cluster st b n = true → ((t.clu w.cluster).store st).bytes b n = w.data ∧
        ∀ j ≠ 3, ∀ x, (j ≠ st ∨ x < b ∨ b + n ≤ x) →
          ((t.clu w.cluster).store j).byte x = ((s.clu w.cluster).store j).byte x) ∧
      (s.banksIdle w.cluster st b n = false →
        t.clu w.cluster = { s.clu w.cluster with elw := (s.clu w.cluster).elw ++ [(st, b, w.data)] })
    let berthOf := fun (d : Desc) (off : Nat) (data : Bytes) => RemoteWrite.mk (bits (d.dst + off) 32 16) (bits (d.dst + off) 25 7)
      (bits (d.dst + off) 0 25) data .ferry (BitVec.ofNat 6 s.pos) d.part (BitVec.ofNat 16 d.gen)
    (k.act = none ∨ s.fld F.FRY_CTL.EN [] ≠ 1 ∨ (∃ d, k.act = some d ∧ (d.len ≤ d.off ∨ d.fail.isSome = true)) ∨
      128 ≤ k.fly.length ∨ (k.chunk = false ∧ s.chunkOpen e.val = false) → exec (.ferryPieceIssue e) s = .next s) ∧
    (∀ (d : Desc) (g : Nat), k.act = some d → s.fld F.FRY_CTL.EN [] = 1 → k.chunk = true → k.pre = false → d.off < d.len →
      d.fail = none → k.fly.length < 128 → d.op = 2 → d.dsp = 1 → d.load = none →
      let n := s.pieceLen d
      let w := berthOf d d.off ((List.range n).map (fun i => listGet 0 (leBytes 8 d.src) ((d.off + i) % 8)))
      s.judgeWrite w = .inl g → Runs (.ferryPieceIssue e) s fun t =>
        (t.eng e.val).act = some { d with off := d.off + n } ∧ lands w t) ∧
    (∀ x, k.fly.any (fun f => f.off == respOff x) = false → exec (.ferryPieceResponse e x) s = .next s) ∧
    (∀ f r, k.fly = f :: r → f.sink = false →
      (f.wr = true → (∀ d ∈ k.all, d.fin ≠ 1) → Runs (.ferryPieceResponse e (.done f.off)) s fun t =>
        t.eng e.val = { k with fly := r } ∧ t.cl = s.cl) ∧
      (∀ x ∈ [PieceResponse.poison f.off, .memErr f.off], Runs (.ferryPieceResponse e x) s fun t => (t.eng e.val).fly = r ∧
        t.cl = s.cl ∧ ∀ d, k.act = some d → d.uid = f.uid → d.fail = none →
          (t.eng e.val).act = some { d with fail := some (5, 0, f.off) }) ∧
      (∀ (d : Desc) (b : Bytes) (g : Nat), f.wr = false → f.ring = false → k.all.find? (fun d => d.uid == f.uid) = some d →
        d.dsp = 1 → d.load = none → f.len ≤ b.length → s.judgeWrite (berthOf d f.off (b.take f.len)) = .inl g →
        Runs (.ferryPieceResponse e (.data f.off b)) s fun t =>
          (t.eng e.val).fly = r ∧ lands (berthOf d f.off (b.take f.len)) t)) ∧
    (∀ (id : Nat) (entries : List Fetched64), (s.walks.find? (fun w => w.id == id) = none →
      exec (.chartWalkComplete id entries) s = .next s) ∧
      ∀ w, s.walks.find? (fun w => w.id == id) = some w → w.eng = e.val →
        (k.all.any (fun d => d.uid == w.uid) = false →
          exec (.chartWalkComplete id entries) s = .next { s with walks := s.walks.filter (fun x => x.id != id) }) ∧
        ∀ pa, k.all.any (fun d => d.uid == w.uid) = true → (s.xlate w.part w.pt w.wr entries).out = .ok pa →
          Runs (.chartWalkComplete id entries) s fun t => (t.eng e.val).xl = k.xl ++ [(w.uid, w.pt, pa)] ∧
            t.walks = s.walks.filter (fun x => x.id != id) ∧ t.cl = s.cl) ∧
    (s.ending e.val = none → exec (.descriptorEnd e) s = .next s) ∧
    (∀ d : Desc, s.ending e.val = some d → bitAt d.flags 2 = false → d.fail = none →
      let shut := s.fld F.TDE_TSTAT.STATE [] = 2 ∨ s.fld F.TDE_TSTAT.STATE [] = 3
      (bitAt d.flags 1 = true → shut → exec (.descriptorEnd e) s = .next s) ∧
      (bitAt d.flags 1 = false ∨ ¬shut → Runs (.descriptorEnd e) s fun t => t.eng e.val = k.remove d.uid ∧ t.cl = s.cl ∧
        ∀ x ∈ (t.eng e.val).all, x.uid ≠ d.uid))

/-- Each invalidation drops the cached entries it names and marks every walk begun before; a fault record takes the
next slot. With the right to the partition and no invalidation busy: INV_PARTITION drops every cached entry of the
partition, INV_RANGE those of levels 0 to 3 that serve an address of the range, INV_STREAM_PAGES those of stream
levels; every other entry stays, every walk begun before is marked so that it caches nothing, and BUSY is set until
all those have ended; then BUSY and OP read 0, and no engine holds a translation from before. Without the right each
is refused, and while one is busy it is answered BUSY. The oldest fault record is written at WIDX, which advances,
while the fault queue has room, and waits, with event 0x0504 once, while it has none. -/
def Obligations.InvalidationsDropTheirEntriesAndFaultRecordsQueue : Prop :=
  ∀ (s : State) (q : Requester) (p : Fin 16), s.coreOn = true →
    let right := isFw q || (s.rightsOf q).ofPart p.val
    let all := fun (P : Instr → Prop) => P (.invPartition q p) ∧ P (.invStreamPages q p) ∧ ∀ va : BitVec 32, P (.invRange q p va)
    (right = false → all fun i => Runs i s (Denied s)) ∧
    (right = true → s.fld F.CHT_INV.BUSY [] = 1 → all fun i => exec i s = .next { s with lastStat := stBusy }) ∧
    (right = true → s.fld F.CHT_INV.BUSY [] = 0 →
      let drops := fun (i : Instr) (keep : CEnt → Prop) => Runs i s fun t => t.lastStat = 0 ∧ t.fld F.CHT_INV.BUSY [] = 1 ∧
        (∀ w ∈ t.walks, w.stale = true) ∧ (∀ x, x ∈ t.cache ↔ (x ∈ s.cache ∧ keep x)) ∧
        RegsBut [regAddr .CHT_INV [], regAddr .CHT_STAT []] s t
      drops (.invPartition q p) (fun x => x.part ≠ p.val) ∧
      drops (.invStreamPages q p) (fun x => x.part ≠ p.val ∨ x.level < 4) ∧
      ∀ va : BitVec 32, drops (.invRange q p va) (fun x =>
        let lo := va.toNat * 2 ^ 16
        let hi := lo + max 1 (s.fld F.CHT_INVLEN.NPG []) * 2 ^ 16
        let span := 2 ^ (vaLevel x.level).1
        let b := x.va * 2 ^ 16 / span * span
        ¬(x.part = p.val ∧ x.level ≤ 3 ∧ b < hi ∧ lo < b + span))) ∧
    (s.fld F.CHT_INV.BUSY [] = 1 → (∀ w ∈ s.walks, w.stale = false) → Runs .invalidationComplete s fun t =>
      t.fld F.CHT_INV.BUSY [] = 0 ∧ t.fld F.CHT_INV.OP [] = 0 ∧ (∀ e, (t.eng e).xl = []) ∧
      t = { s with regs := t.regs, engs := t.engs }) ∧
    (s.fld F.CHT_INV.BUSY [] = 0 ∨ (∃ w ∈ s.walks, w.stale = true) → exec .invalidationComplete s = .next s) ∧
    (s.frecs = [] → exec .faultRecordWrite s = .next s) ∧
    (∀ x r, s.frecs = x :: r →
      let n := 2 ^ min 16 (max 4 (s.fld F.FRY_FQBASE.LSIZE []))
      let used := (s.fld F.FRY_FQIDX.WIDX [] + 2 ^ 32 - s.fld F.FRY_FQIDX.RIDX []) % 2 ^ 32
      (used < n → Runs .faultRecordWrite s fun t => t.frecs = r ∧ t.fqFull = false ∧
        t.fld F.FRY_FQIDX.WIDX [] = (s.fld F.FRY_FQIDX.WIDX [] + 1) % 2 ^ 32 ∧ t.cl = s.cl) ∧
      (n ≤ used → s.fqFull = false → Runs .faultRecordWrite s fun t => t.frecs = s.frecs ∧ t.fqFull = true ∧
        RegsBut [regAddr .FE_EVSTAT []] s t) ∧
      (n ≤ used → s.fqFull = true → exec .faultRecordWrite s = .next s))

/-- A claim is resolved by term and then by position, and a die that is no candidate is refused. For a clocked die: a
claim of a higher term, or of the current term by a lower position, is accepted: term and helm position are the
claim's, HSTATE is 2 on the claimant, helm-fenced on a die that was helm or helm-fenced, else follower; the current
claim again changes nothing but HMAXT; any other is counted in CLREJ and changes neither term, helm nor HSTATE. HMAXT
takes the greatest term in every case. A write of CLAIM is refused without device rights, and as invalid on a die that
is no candidate or for a term not above HMAXT; else it is answered OK, HMAXT is its term, and it applies here where
its term is above the current one, or equal with a lower position. -/
def Obligations.ClaimsAreResolvedByTermThenPosition : Prop :=
  ∀ s : State, s.coreOn = true →
    let hmax := fun (u : State) => u.fld F.CLK_HELM_0.HMAXT []
    let hpos := fun (u : State) => u.fld F.CLK_HELM_1.HPOS []
    let wins := fun (T q : Nat) => s.term < T ∨ (T = s.term ∧ q < hpos s)
    (∀ (T : BitVec 32) (q : BitVec 6), Runs (.synClaim T q) s fun t => hmax t = max T.toNat (hmax s) ∧
      (wins T.toNat q.toNat → t.term = T.toNat ∧ t.fld F.CLK_HELM_0.TERM [] = T.toNat ∧ hpos t = q.toNat ∧
        t.hstate = if q.toNat = s.pos then 2 else if 2 ≤ s.hstate then 3 else 1) ∧
      (T.toNat = s.term → q.toNat = hpos s → t = { s with regs := t.regs } ∧ RegsBut [regAddr .CLK_HELM_0 []] s t) ∧
      (¬ wins T.toNat q.toNat → ¬ (T.toNat = s.term ∧ q.toNat = hpos s) → t.term = s.term ∧ hpos t = hpos s ∧
        t.hstate = s.hstate ∧ t.fld F.CLK_HELM_1.CLREJ [] = satAdd 16 (s.fld F.CLK_HELM_1.CLREJ []) 1)) ∧
    (∀ (r : Requester) (T : BitVec 32), s.holds r 2 0 = false → Runs (.claim r T) s (Denied s)) ∧
    (∀ (r : Requester) (T : BitVec 32), s.holds r 2 0 = true →
      (s.bit F.ID_STRAP.HCAND [] = false ∨ s.bit F.ID_STRAP.VALID [] = false ∨ T.toNat ≤ hmax s →
        exec (.claim r T) s = .next { s with lastStat := stInvalid }) ∧
      (s.bit F.ID_STRAP.HCAND [] = true → s.bit F.ID_STRAP.VALID [] = true → hmax s < T.toNat →
        Runs (.claim r T) s fun t => t.lastStat = stOk ∧ hmax t = T.toNat ∧
          (s.pos < 64 → wins T.toNat s.pos → t.term = T.toNat ∧ hpos t = s.pos ∧ t.hstate = 2)))

/-- The helm sends each notice once, the die arrives when every partition has, and a late partition is stopped. For a
clocked die: a helm whose next tide it has not noticed broadcasts that notice and remembers it, and with that of tide
0 takes up the package budget; a notice of the coming tide with the current term is taken, any other ignored; a die in
RUN with the notice, all of whose partitions have arrived, is ARRIVED with the expected-count lists copied in order of
partition and cluster; a partition with a voyage that has not arrived at TLATE is stopped: its voyage ends with STATUS
0x10 and FCODE 0x30 at its program counter, it is marked late, and its pilots, where nothing is under way in their
clusters, have PFAULT set and are in FAULT, but for one that has ended; any other partition is left alone. -/
def Obligations.NoticesArrivalsAndTheLateExpiry : Prop :=
  ∀ s : State, s.coreOn = true →
    (s.hstate = 2 → s.helm.ntc ≤ s.nextTide → Runs .helmTideNotice s fun t => t.helm.ntc = s.nextTide + 1 ∧
      t.regs = s.regs ∧ t.tide = s.tide ∧ t.cl = s.cl ∧
      (s.nextTide = 0 → t.helm.grants = s.members_.map (fun q => (q, s.firstGrant)) ∧ t.helm.pkgb = s.pkgb) ∧
      (s.nextTide ≠ 0 → t.helm = { s.helm with ntc := s.nextTide + 1 })) ∧
    (s.hstate ≠ 2 ∨ s.nextTide < s.helm.ntc → exec .helmTideNotice s = .next s) ∧
    (∀ (n : W64) (T : BitVec 32), exec (.synNotice n T) s = .next
      (if n.toNat = s.nextTide ∧ T.toNat = s.term then { s with tide := { s.tide with noticed := true } } else s)) ∧
    (∀ ccy : BitVec 32,
      let cs := (List.range 16).flatMap (fun p => if (s.part p).live then (s.part p).cls.map (fun c => (p, c)) else [])
      s.tst = 0 → s.tide.noticed = true → (∀ p < 16, s.arrived p = true) → (cs.map (·.2)).Nodup →
      Runs (.dieArrival ccy) s fun t => t.tst = 1 ∧ t.tide.lists = cs.map (fun x => (x.1, x.2, s.tideEntries x.2)) ∧
        t.pt = s.pt ∧ ∀ x ∈ cs, (t.clu x.2).tideList = none) ∧
    (∀ ccy : BitVec 32, s.tst ≠ 0 ∨ s.tide.noticed = false ∨ (∃ p < 16, s.arrived p = false) →
      exec (.dieArrival ccy) s = .next s) ∧
    (∀ p : Fin 16, s.tst = 0 → s.tide.noticed = true → s.arrived p.val = false →
      let q := s.part p.val
      let c := q.cls.head?.getD 0
      Runs (.tlateExpiry p) s fun t => (t.part p.val).live = false ∧
        (t.part p.val).fin = some ⟨0x10, c, 0x30, 0, s.fld F.CLU_PSTAT.PC [c], q.scyc⟩ ∧ p.val ∈ t.tide.late ∧
        t.fld F.FE_PSTAT.STATE [p.val] = (if s.fld F.FE_PSTAT.STATE [p.val] = 8 then 8 else 7) ∧ t.tst = 0 ∧
        ((∀ d ∈ q.cls, d < 1250 ∧ (s.clu d).pend = [] ∧ (s.clu d).elw = []) → (∀ e ∈ s.tnet, e.1 < 16384) → ∀ d ∈ q.cls,
          t.pilot d = (if s.pilot d = 5 then 5 else 6) ∧
          t.word .CLU_PFAULT [d] = 0x30 * 2 ^ 56 + s.fld F.CLU_PSTAT.PC [d] * 2 ^ 32 + q.scyc % 2 ^ 32)) ∧
    (∀ p : Fin 16, s.tst ≠ 0 ∨ s.tide.noticed = false ∨ s.arrived p.val = true → exec (.tlateExpiry p) s = .next s)

/-- A die is SEALED once its effects are acknowledged, the helm releases each tide once, and only a release of its
term leaves SEALED. For a clocked die: an ARRIVED die whose period is acknowledged is SEALED and, where it is the
helm, holds its own seal and, its MP running firmware, its REPORT; the helm records the highest seal of each die and,
once every member has sealed a tide that this term has not released, releases it; a SEALED die takes a release of its
tide with the current term: TNUM, NEXT CCLK and the stall are recorded, a new period begins and it is in RECON, every
partition at the barrier counting the tide; a release with another term leaves it SEALED and is counted in RIGN; one
for another tide, or in another state, changes nothing; a stall is marked once. -/
def Obligations.SealsAndReleasesOfTides : Prop :=
  ∀ s : State, s.coreOn = true →
    let n := s.nextTide
    (∀ (x : Nat) (ccy : BitVec 32), s.tst = 1 → s.acked = true → Runs (.tideSeal x ccy) s fun t => t.tst = 2 ∧
      t.tide.lists = s.tide.lists ∧ t.cl = s.cl ∧ t.pt = s.pt ∧ (s.hstate = 2 → n < SMap.get 0 t.helm.seals s.pos ∧
        (s.mpst ≤ 1 → ∃ r ∈ t.helm.reps, r.1 = s.pos ∧ r.2.tide = BitVec.ofNat 64 n ∧
          r.2.energy = BitVec.ofNat 32 ((s.fld F.PWR_DENERGY.E [] - s.pow.energyAt + x) / 1000) ∧
          r.2.guse = BitVec.ofNat 32 (s.fld F.PWR_GRANT.GRANT []) ∧ r.2.demand = BitVec.ofNat 32 s.pow.demand))) ∧
    (∀ (x : Nat) (ccy : BitVec 32), s.tst ≠ 1 ∨ s.acked = false → exec (.tideSeal x ccy) s = .next s) ∧
    (∀ (q : BitVec 6) (k : W64),
      (s.hstate = 2 → Runs (.synSeal q k) s fun t => t = { s with
          helm := { s.helm with seals := t.helm.seals }, land := t.land, out := t.out, free := t.free } ∧
        SMap.get 0 t.helm.seals q.toNat = max (SMap.get 0 s.helm.seals q.toNat) (k.toNat + 1) ∧
        ∀ d, d ≠ q.toNat → SMap.get 0 t.helm.seals d = SMap.get 0 s.helm.seals d) ∧
      (s.hstate ≠ 2 → Runs (.synSeal q k) s fun t => t = { s with land := t.land, out := t.out, free := t.free })) ∧
    (∀ m, s.hstate = 2 → (s.members_.map (fun q => SMap.get 0 s.helm.seals q)).min? = some m →
      (s.helm.rel < m → Runs .helmRelease s fun t => t = { s with
        helm := { s.helm with rel := m }, land := t.land, out := t.out, free := t.free }) ∧
      (m ≤ s.helm.rel → exec .helmRelease s = .next s)) ∧
    (s.hstate ≠ 2 ∨ s.members_ = [] → exec .helmRelease s = .next s) ∧
    (∀ (T k ccy : BitVec 32) (stall : Nat), ∀ num : W64,
      (s.tst = 2 → num.toNat = n → T.toNat = s.term → Runs (.synRelease num T k stall ccy) s fun t => t.tst = 3 ∧
        t.fld F.TDE_TNUM.NUM [] = n ∧ t.period = n + 1 ∧ t.fld F.CLK_CCLK.NEXT [] = k.toNat % 2 ^ 22 ∧ t.tide.stall = stall ∧
        t.tide.noticed = false ∧ t.tide.recon = false ∧ t.pow.bub = 0 ∧ t.once = [] ∧ ∀ p < 16,
          t.fld F.TDE_PTIDE.NTIDE [p] = (if (s.part p).live = true ∧ (s.part p).tideAt.isSome = true then
            (s.fld F.TDE_PTIDE.NTIDE [p] + 1) % 2 ^ 32 else s.fld F.TDE_PTIDE.NTIDE [p])) ∧
      (s.tst = 2 → num.toNat = n → T.toNat ≠ s.term → Runs (.synRelease num T k stall ccy) s fun t =>
        t = { s with regs := t.regs } ∧ RegsBut [regAddr .TDE_RAMP []] s t ∧ t.tst = 2 ∧
        t.fld F.TDE_RAMP.RIGN [] = satAdd 16 (s.fld F.TDE_RAMP.RIGN []) 1) ∧
      (s.tst ≠ 2 ∨ num.toNat ≠ n → exec (.synRelease num T k stall ccy) s = .next s)) ∧
    (s.tst = 2 → s.tide.stalled = false → Runs .tideStall s fun t => t.tide = { s.tide with stalled := true } ∧ t.tst = 2 ∧
      (s.evq.length < 1024 → ∃ e ∈ t.evq, e.code = 0x0405)) ∧
    (s.tst ≠ 2 ∨ s.tide.stalled = true → exec .tideStall s = .next s)

/-- Reconciliation marks MIS and DRF of a tally as its entry and its counts say, sets VALUE where asked, and rebases
the tally. Where the lists hold one entry of partition p, and the entry names a tally t of p with no reserved bit set:
MIS is set where a checked count differs; DRF where the checked value differs without a MIS and saturation does not
excuse it; VALUE takes EVAL where SET is set; then START is VALUE and both counts are 0; the partitions with a MIS are
named for containment. An entry with a reserved bit set, or of a tally that is not of p, leaves VALUE, MIS and DRF of
that tally alone and counts in DUP. -/
def Obligations.ReconciliationChecksAnEntryOnce : Prop :=
  ∀ (s : State) (p c w0 w1 t : Nat), s.tide.lists = [(p, c, [(w0, w1)])] → t = bits w0 48 16 → p < 16 → t ∈ s.tallyRange p →
    t < 16384 →
    let v := s.fld F.TDE_TAL.VALUE [t]
    let prod := s.fld F.TDE_TCNT.PROD [t]
    let cons := s.fld F.TDE_TCNT.CONS [t]
    let clip : Int := (s.fld F.TDE_TCFG.START [t] : Int) + prod - cons - v
    let clean := bits w0 24 19 = 0 ∧ bits w1 56 8 = 0 ∧ bits w1 24 8 = 0 ∧ s.tallyOf p t = true
    let mis := (bitAt w0 47 = true ∧ prod ≠ bits w1 32 24) ∨ (bitAt w0 46 = true ∧ cons ≠ bits w1 0 24)
    let drf := bitAt w0 45 = true ∧ ¬ mis ∧ v ≠ bits w0 0 24 ∧ ¬ (bitAt w0 44 = true ∧ clip ≠ 0)
    let r := s.reconcile
    r.1.fld F.TDE_TCFG.START [t] = r.1.fld F.TDE_TAL.VALUE [t] ∧ r.1.fld F.TDE_TCNT.PROD [t] = 0 ∧
    r.1.fld F.TDE_TCNT.CONS [t] = 0 ∧ r.1.tide.lists = [] ∧
    (clean → r.1.fld F.TDE_TAL.VALUE [t] = (if bitAt w0 43 = true then bits w0 0 24 else v) ∧
      (mis → r.1.fld F.TDE_TAL.MIS [t] = 1 ∧ r.2 = [(p, c)] ∧
        r.1.fld F.TDE_RCERR.MIS [] = satAdd F.TDE_RCERR.MIS.w (s.fld F.TDE_RCERR.MIS []) 1) ∧
      (¬ mis → r.1.fld F.TDE_TAL.MIS [t] = s.fld F.TDE_TAL.MIS [t] ∧ r.2 = []) ∧
      (drf → r.1.fld F.TDE_TAL.DRF [t] = 1) ∧ (¬ drf → r.1.fld F.TDE_TAL.DRF [t] = s.fld F.TDE_TAL.DRF [t])) ∧
    (¬ clean → r.1.fld F.TDE_TAL.VALUE [t] = v ∧ r.1.fld F.TDE_TAL.MIS [t] = s.fld F.TDE_TAL.MIS [t] ∧ r.2 = [] ∧
      r.1.fld F.TDE_RCERR.DUP [] = satAdd F.TDE_RCERR.DUP.w (s.fld F.TDE_RCERR.DUP []) 1)

/-- RECON applies grant and CCLK and rebases the tallies, and the ramp takes the partitions and held TALLYs up and
ends in RUN. For a clocked die: in RECON the released CCLK is the current one, the grant named for the tide applies,
and without one MISS rises; where no entry shows a MIS every tally of a partition is rebased; then RAMP begins with
ACT set and wave 0, the waiting partitions leave the barrier under the ramp, and no TALLY is held back; each wave ends
in the next, and wave 15 in RUN, with every ramp mark cleared; a TALLY of an earlier period is dropped, one of a later
period, or of this one during RECON, is held in order; an admitted increment of the present period lands at once where
its owner runs no voyage, and a decrement that the committed value does not cover waits; a TACK takes one TALLY off
those sent. -/
def Obligations.ReconAppliesAndTheRampReturnsToRun : Prop :=
  ∀ s : State, s.coreOn = true →
    let num := s.fld F.TDE_TNUM.NUM []
    (∀ ccy : BitVec 32, s.tst = 3 → s.tide.recon = false → (∀ l < 8, ∀ c, (s.lnd l).chg = some c → c.m < 4) →
      Runs (.reconStart ccy) s fun t => t.tst = 3 ∧
      t.tide.recon = true ∧ t.tide.lists = [] ∧ t.fld F.TDE_TNUM.NUM [] = num ∧
      t.fld F.CLK_CCLK.CUR [] = (if s.tide.cclk = 0 then s.fld F.CLK_CCLK.CUR [] else s.tide.cclk % 2 ^ 22) ∧
      (∀ g, s.pow.grant = some (num, g) → t.fld F.PWR_GRANT.GRANT [] = g % 2 ^ 20 ∧ t.fld F.PWR_GRANT.MISS [] = 0 ∧
        t.fld F.PWR_GRANT.GTIDE [] = num % 2 ^ 32) ∧
      ((∀ g, s.pow.grant ≠ some (num, g)) → t.fld F.PWR_GRANT.GRANT [] = s.fld F.PWR_GRANT.GRANT [] ∧
        t.fld F.PWR_GRANT.MISS [] = satAdd 4 (s.fld F.PWR_GRANT.MISS []) 1) ∧
      (s.reconcile.2 = [] → ∀ p < 16, ∀ x ∈ s.tallyRange p, x < 16384 →
        t.fld F.TDE_TCFG.START [x] = t.fld F.TDE_TAL.VALUE [x] ∧ t.fld F.TDE_TCNT.PROD [x] = 0 ∧
        t.fld F.TDE_TCNT.CONS [x] = 0)) ∧
    (∀ ccy : BitVec 32, s.tst ≠ 3 ∨ s.tide.recon = true → exec (.reconStart ccy) s = .next s) ∧
    (∀ ccy : BitVec 32, s.tst = 3 → s.tide.recon = true → Runs (.rampStart ccy) s fun t => t.tst = 4 ∧
      t.fld F.TDE_RAMP.ACT [] = 1 ∧ t.fld F.TDE_RAMP.WAVE [] = 0 ∧ t.tide.held = [] ∧ ∀ p < 16, (s.part p).live = true →
        (t.part p).tideAt = none ∧ (t.part p).rampJ = some 0 ∧ ((∀ x ∈ s.tide.held ++ s.tide.waits, x.tally < 2 ^ 16) →
          ∀ c ∈ (s.part p).cls, c < 1250 → s.pilot c = 4 → t.pilot c = 2)) ∧
    (∀ (w : List Nat) (ccy : BitVec 32), s.tst = 4 →
      (s.fld F.TDE_RAMP.WAVE [] < 15 → Runs (.rampWaveEnd w ccy) s fun t => t = { s with regs := t.regs } ∧
        RegsBut [regAddr .TDE_RAMP []] s t ∧ t.fld F.TDE_RAMP.WAVE [] = s.fld F.TDE_RAMP.WAVE [] + 1) ∧
      (s.fld F.TDE_RAMP.WAVE [] = 15 → Runs (.rampWaveEnd w ccy) s fun t => t.tst = 0 ∧ t.fld F.TDE_RAMP.ACT [] = 0 ∧
        ∀ p < 16, (t.part p).rampJ = none ∧
          (s.exists_ p = true → t.fld F.TDE_PTIDE.LASTW [p] = min (listGet 0 w p) (2 ^ 32 - 1)))) ∧
    (∀ (w : List Nat) (ccy : BitVec 32), s.tst ≠ 4 → exec (.rampWaveEnd w ccy) s = .next s) ∧
    (∀ ccy : BitVec 32, s.tst ≠ 3 ∨ s.tide.recon = false → exec (.rampStart ccy) s = .next s) ∧
    (∀ (h : Header) (x : BitVec 16) (a : Int) (k : W64),
      (k.toNat < s.period → Runs (.synTally h x a k) s fun t => t = { s with land := t.land, out := t.out, free := t.free }) ∧
      (s.period < k.toNat ∨ (k.toNat = s.period ∧ s.tst = 3) → Runs (.synTally h x a k) s fun t => t = { s with
        tide := { s.tide with held := s.tide.held ++ [⟨h, x.toNat, a⟩] }, land := t.land, out := t.out, free := t.free }) ∧
      (k.toNat = s.period → s.tst ≠ 3 → 0 ≤ a → s.tide.waits = [] → x.toNat < 16384 →
        s.tallyAdmits x.toNat h.part.toNat h.gen.toNat (some h.src.toNat) = true →
        (s.part (s.fld F.TDE_TCFG.OWNER [x.toNat])).live = false → Runs (.synTally h x a k) s fun t =>
          t.fld F.TDE_TAL.VALUE [x.toNat] = min (s.fld F.TDE_TAL.VALUE [x.toNat] + a.toNat) 16777215) ∧
      (k.toNat = s.period → s.tst ≠ 3 → a < 0 → s.tide.waits = [] →
        s.tallyAdmits x.toNat h.part.toNat h.gen.toNat (some h.src.toNat) = true → s.tallyCommitted x.toNat < a.natAbs →
        Runs (.synTally h x a k) s fun t => t.tide.waits = [⟨h, x.toNat, a⟩] ∧ t.regs = s.regs)) ∧
    (∀ (q : BitVec 6) (x : BitVec 16), exec (.synTack q x) s =
      .next { s with tide := { s.tide with sent := s.tide.sent.erase (q.toNat, x.toNat) } })

/-- The computed grants cover the members and keep their sum and bounds, and reports, grants, digests and CCLKs are
recorded by their rules. For a clocked die: the helm's computation leaves one grant for each member of which it has a
grant or a REPORT, and every register as it was; with no package budget each is PENV; with the budget unchanged and
one REPORT of each die at most, the grants keep their sum, none that was at or above GMIN falls below it and none that
was within PENV rises above it; the helm keeps the last REPORT of each die; all three are duties of the firmware, and
rest while the MP swaps, restarts or halts; a GRANT of the current term for a tide still to come waits for it, any
other is discarded; a DIGEST replaces the one of its sender; a reported CCLK waits for RECON while one is due, else
marks its fixed-latency landing where it differs and unmarks it where it does not. -/
def Obligations.GrantsMoveAndNeverGrowInSum : Prop :=
  ∀ s : State, s.coreOn = true →
    let sum := fun (l : List (Nat × Nat)) => (l.map (·.2)).sum
    (s.hstate = 2 → s.tide.begun = true → s.mpst ≤ 1 → Runs .grantCompute s fun t => t.regs = s.regs ∧ t.cl = s.cl ∧ t.tide = s.tide ∧
      t.helm.grants.map (·.1) = s.members_.filter (fun q =>
        s.helm.grants.any (fun g => g.1 == q) || s.helm.reps.any (fun r => r.1 == q)) ∧ t.helm.pkgb = s.pkgb ∧
      (s.pkgb = 0 → ∀ g ∈ t.helm.grants, g.2 = s.penv) ∧
      (s.pkgb ≠ 0 → s.helm.begun = true → s.helm.pkgb = s.pkgb → s.helm.grants.map (·.1) = s.members_ →
        (s.helm.reps.map (·.1)).Nodup → sum t.helm.grants = sum s.helm.grants ∧
        ((∀ g ∈ s.helm.grants, s.gmin ≤ g.2) → ∀ g ∈ t.helm.grants, s.gmin ≤ g.2) ∧
        ((∀ g ∈ s.helm.grants, g.2 ≤ s.penv) → ∀ g ∈ t.helm.grants, g.2 ≤ s.penv))) ∧
    (s.hstate ≠ 2 ∨ s.tide.begun = false ∨ 2 ≤ s.mpst → exec .grantCompute s = .next s) ∧
    (∀ (q : BitVec 6) (r : TollReport),
      (s.hstate = 2 → s.mpst ≤ 1 → Runs (.tollReport q r) s fun t => t = { s with
          helm := { s.helm with reps := t.helm.reps }, land := t.land, out := t.out, free := t.free } ∧
        (∀ x, (q.toNat, x) ∈ t.helm.reps ↔ x = r) ∧ ∀ d x, d ≠ q.toNat → ((d, x) ∈ t.helm.reps ↔ (d, x) ∈ s.helm.reps)) ∧
      (s.hstate ≠ 2 ∨ 2 ≤ s.mpst → Runs (.tollReport q r) s fun t =>
        t = { s with land := t.land, out := t.out, free := t.free })) ∧
    (∀ (k : W64) (g T : BitVec 32),
      let due := if s.tst = 3 ∧ s.tide.recon = false then s.fld F.TDE_TNUM.NUM [] else s.nextTide
      Runs (.tollGrant k g T) s fun t => t = { s with pow := t.pow, land := t.land, out := t.out, free := t.free } ∧
        t.pow = if s.mpst ≤ 1 ∧ T.toNat = s.term ∧ due ≤ k.toNat then { s.pow with grant := some (k.toNat, g.toNat) } else s.pow) ∧
    (∀ (q : BitVec 6) (e : W64) (d : Bytes), Runs (.synDigest q e d) s fun t =>
      t = { s with helm := { s.helm with digs := t.helm.digs } } ∧
      (∀ x, (q.toNat, x) ∈ t.helm.digs ↔ x = (e.toNat, slice d 0 48)) ∧
      ∀ j x, j ≠ q.toNat → ((j, x) ∈ t.helm.digs ↔ (j, x) ∈ s.helm.digs)) ∧
    (∀ (l : Fin 8) (k : BitVec 32), s.torec l.val = false → exec (.synCclk l k) s = .next s) ∧
    (∀ (l : Fin 8) (k : BitVec 32), s.torec l.val = true →
      (s.tst = 2 ∨ (s.tst = 3 ∧ s.tide.recon = false) → Runs (.synCclk l k) s fun t =>
        (t.lnd l.val).pcclk = some k.toNat ∧ t = { s with land := t.land, out := t.out, free := t.free } ∧ ∀ j, j ≠ l.val → t.lnd j = s.lnd j) ∧
      (s.tst ≠ 2 → ¬ (s.tst = 3 ∧ s.tide.recon = false) → Runs (.synCclk l k) s fun t =>
        (l.val ∈ t.cclkBad ↔ s.lstate l.val = 3 ∧ k.toNat ≠ s.fld F.CLK_CCLK.CUR []) ∧
        ∀ j, j ≠ l.val → (j ∈ t.cclkBad ↔ j ∈ s.cclkBad)))

/-- Requests are answered by their rule, answers end the piece or write of their tag, and other messages are forwarded
or counted. For a clocked die and a Torec landing: a reserved message is dropped and counted, as whatever it came. A
BWR is answered ERR 3 when poisoned, ERR 5 for a cluster of no grade or a denied write, WACK when it lands or is
STALE; every other request is answered ERR 1. A WACK or ERR ends the piece or event-ring write of its tag, ERR
counting in TERR; read data of a one-part piece to a berth ends it and lands there, poison ends it. Returned credits
add up and let the first waiting message go. A message for another die is sent or queued on its route, or counted
where it has none; a broadcast goes on once; a TRACE leaves all but the credits it gives back. CXL answers act alike
on a CXL landing. On a landing of the other kind each leaves the state as it is. -/
def Obligations.MessagesAreAnsweredForwardedOrCounted : Prop :=
  ∀ (s : State) (l : Fin 8) (h : Header) (d : Bytes), s.coreOn = true →
    let rep := fun (opc : Nat) (d : Bytes) (t : State) =>
      .torec l.val (s.hdr 0 opc h.src.toNat 0 0 (units16 d.length) h.tag.toNat 0) d ∈ t.out
    let tag := h.tag.toNat
    let bad := s.badMessage l.val h
    let sent := fun (t : State) => t = { s with land := t.land, out := t.out, free := t.free }
    let ends := fun (e i : Nat) (t : State) => (t.eng e).fly = (s.eng e).fly.eraseIdx i
    let plain := fun (d : Desc) => d.dsp = 1 ∧ d.load = none
    let wr := fun (d : Desc) (off : Nat) (data : Bytes) => RemoteWrite.mk (bits (d.dst + off) 32 16) (bits (d.dst + off) 25 7)
      (bits (d.dst + off) 0 25) data .ferry (BitVec.ofNat 6 s.pos) d.part (BitVec.ofNat 16 d.gen)
    let landed := fun (w : RemoteWrite) (t : State) =>
      let st := s.berthStore w.cluster w.handle
      let b := s.berthBase w.cluster w.handle + w.off
      s.banksIdle w.cluster st b w.data.length = true → ((t.clu w.cluster).store st).bytes b w.data.length = w.data
    (s.torec l.val = false → ∀ i ∈ [Instr.memBwr l h d, .memUnsupportedRequest l h, .memRdr l h d, .memWack l h,
      .torecForward l h d, .torecReservedMessage l h, .dbgTrace l h d], exec i s = .next s) ∧
    (s.torec l.val = false → ∀ code, exec (.memErr l h code) s = .next s) ∧
    (s.torec l.val = true → bad = true → exec (.dbgTrace l h d) s = .next s ∧
      ∀ i ∈ [Instr.memBwr l h d, .memUnsupportedRequest l h, .memRdr l h d, .memWack l h, .memErr l h 0, .torecForward l h d,
        .torecReservedMessage l h], Runs i s fun t => t.cl = s.cl ∧
          t.fld F.LND_CNT.DROP [l.val] = satAdd 16 (s.fld F.LND_CNT.DROP [l.val]) 1) ∧
    (s.torec l.val = true → bad = false → exec (.torecReservedMessage l h) s = .next s ∧ Runs (.dbgTrace l h d) s sent ∧
      (h.cls ≠ 0 ∨ h.opc ≠ 2 → exec (.memBwr l h d) s = .next s) ∧
      (h.cls ≠ 0 ∨ (h.opc ≠ 0 ∧ h.opc ≠ 1) → exec (.memUnsupportedRequest l h) s = .next s) ∧
      (h.cls = 0 → h.opc = 0 ∨ h.opc = 1 → Runs (.memUnsupportedRequest l h) s fun t => rep 0xF (leBytes 16 1) t ∧ sent t) ∧
      (h.cls = 0 → h.opc = 2 →
        let w := bwrWrite h d
        (h.poi = true → Runs (.memBwr l h d) s fun t => rep 0xF (leBytes 16 3) t ∧ sent t) ∧
        (h.poi = false → s.enabled w.cluster = false → Runs (.memBwr l h d) s fun t => rep 0xF (leBytes 16 5) t ∧ sent t) ∧
        (h.poi = false → s.enabled w.cluster = true →
          (∀ g, s.judgeWrite w = .inl g → Runs (.memBwr l h d) s fun t => rep 9 [] t ∧ t.cl = (s.landWrite w g).cl) ∧
          (s.judgeWrite w = .inr 0 → Runs (.memBwr l h d) s fun t => rep 9 [] t ∧ t.cl = s.cl) ∧
          (∀ r, s.judgeWrite w = .inr (r + 1) → Runs (.memBwr l h d) s fun t => rep 0xF (leBytes 16 5) t ∧ t.cl = s.cl))) ∧
      (∀ (e : Fin 64) (i : Nat) (f : Fly), s.tagged tag true = some (e.val, i, f) →
        Runs (.memWack l h) s fun t => ends e.val i t ∧ t.cl = s.cl) ∧
      (s.tagged tag true = none → tag ∈ s.evOut → Runs (.memWack l h) s fun t => t.evOut = s.evOut.filter (· != tag) ∧
        t.cl = s.cl) ∧
      (∀ code : Byte, s.tagged tag false = none → s.tagged tag true = none → tag ∉ s.evOut → tag ∉ s.mp.plOut →
        (∀ x ∈ s.seOut, x.1 ≠ tag) → Runs (.memErr l h code) s fun t =>
        t = { s with regs := t.regs, land := t.land } ∧ RegsBut [regAddr .LND_CNT [l.val]] s t ∧
        t.fld F.LND_CNT.TERR [l.val] = satAdd 16 (s.fld F.LND_CNT.TERR [l.val]) 1) ∧
      (∀ (e : Fin 64) (i : Nat) (f : Fly), s.tagged tag false = some (e.val, i, f) →
        (∀ code, Runs (.memErr l h code) s fun t => ends e.val i t ∧ t.cl = s.cl ∧
          t.fld F.LND_CNT.TERR [l.val] = satAdd 16 (s.fld F.LND_CNT.TERR [l.val]) 1) ∧
        (h.poi = true → Runs (.memRdr l h d) s fun t => ends e.val i t ∧ t.cl = s.cl) ∧
        (∀ x g, h.poi = false → f.tag = tag → f.n1 = f.len → f.got2 = none → f.sink = false →
          (s.eng e.val).all.find? (fun x => x.uid == f.uid) = some x → plain x →
          s.judgeWrite (wr x f.off (slice d f.skip f.len)) = .inl g →
          Runs (.memRdr l h d) s fun t => ends e.val i t ∧ landed (wr x f.off (slice d f.skip f.len)) t)) ∧
      (2 ≤ h.cls.toNat → h.cls.toNat ≤ 5 →
        (¬(h.cls.toNat = 4 ∧ h.dst.toNat = 0x3F) →
          (h.dst.toNat = s.pos → exec (.torecForward l h d) s = .next s) ∧
          (∀ k, h.dst.toNat ≠ s.pos → s.routeOf h.dst.toNat = some k →
            bitAt (s.fld F.LND_STAT.CLS [k]) h.cls.toNat = true →
            Runs (.torecForward l h d) s fun t => (.torec k h d ∈ t.out ∨ (h, d) ∈ (t.lnd k).txq) ∧ sent t) ∧
          (h.dst.toNat ≠ s.pos → s.routeOf h.dst.toNat = none → Runs (.torecForward l h d) s fun t =>
            t.fld F.LND_CNT.DROP [l.val] = satAdd 16 (s.fld F.LND_CNT.DROP [l.val]) 1 ∧ t.cl = s.cl)) ∧
        (h.cls.toNat = 4 → h.dst.toNat = 0x3F →
          let k := (h.opc.toNat, h.src.toNat, s.castKey h d)
          (k ∈ s.tide.seen ∨ h.src.toNat = s.pos → Runs (.torecForward l h d) s sent) ∧
          (k ∉ s.tide.seen → h.src.toNat ≠ s.pos → Runs (.torecForward l h d) s fun t => t.tide.seen = k :: s.tide.seen ∧
            t.regs = s.regs))) ∧
      (h.cls.toNat ≤ 1 → exec (.torecForward l h d) s = .next s)) ∧
    (∀ (c : Fin 6) (n : BitVec 16), (s.torec l.val = false → exec (.cret l c n) s = .next s) ∧
      (s.torec l.val = true → s.trHeld = 0 →
        ((s.lnd l.val).txq = [] → Runs (.cret l c n) s fun t => t = { s with land := t.land } ∧
          (t.lnd l.val).cred = listMod (s.lnd l.val).cred c.val (· + n.toNat) ∧ ∀ j, j ≠ l.val → t.lnd j = s.lnd j) ∧
        (∀ m b, (s.lnd l.val).txq.find? (fun e => e.1.cls.toNat == c.val) = some (m, b) → c.val < (s.lnd l.val).cred.length →
          creditsOf m b ≤ listGet 0 (s.lnd l.val).cred c.val + n.toNat → Runs (.cret l c n) s fun t =>
            .torec l.val m b ∈ t.out ∧ t.regs = s.regs))) ∧
    (∀ (x : BitVec 16) (err : Bool), s.cxlUp l.val = false →
      exec (.cxlNdrCmp l x err) s = .next s ∧ exec (.cxlDrsMemdata l x err d) s = .next s) ∧
    (∀ (x : BitVec 16) (e : Fin 64) (i : Nat) (f : Fly), s.cxlUp l.val = true →
      (s.tagged x.toNat true = some (e.val, i, f) →
        (Runs (.cxlNdrCmp l x false) s fun t => ends e.val i t ∧ t.cl = s.cl) ∧
        (s.tagged x.toNat false = none → Runs (.cxlNdrCmp l x true) s fun t => ends e.val i t ∧ t.cl = s.cl)) ∧
      (s.tagged x.toNat false = some (e.val, i, f) →
        (Runs (.cxlDrsMemdata l x true d) s fun t => ends e.val i t ∧ t.cl = s.cl) ∧
        (f.tag = x.toNat → f.n1 < f.len → f.got2 = none → Runs (.cxlDrsMemdata l x false d) s fun t =>
          t = { s with engs := t.engs, regs := t.regs, land := t.land } ∧ RegsBut [regAddr .FRY_ESTAT [e.val]] s t ∧
          (t.eng e.val).fly = listSet (s.eng e.val).fly i { f with got1 := some (slice d 0 f.n1) })))

/-- A landing trains by its sidebands, capability blocks and result, and in fixed-latency mode takes its frames, slip
words and units. For a clocked die: the first module whose sideband comes up sends the die's own block; a module
without one is retired; a block that does not come is asked for once more, and then the landing is DOWN; a good block
is agreed with the lower version and the common classes, or the landing is DOWN; a second bad block brings it DOWN.
Training ends in LOOP, FIXED or UP with each trained module at its width and every other retired, or in DOWN. A frame
with a bad check is counted; an elastic unit is counted where it is the next; a slot word waits in the slip buffer of
its slot, and reaches its gateway at its cycle; unacknowledged units are sent again; lane errors count and, at the
threshold, mark the lane; a module whose clock redundancy is spent asks to retire. -/
def Obligations.LandingsTrainAndReceiveFrames : Prop :=
  ∀ (s : State) (l : Fin 8), s.coreOn = true →
    let k := s.lnd l.val
    let st := s.lstate l.val
    let down := fun (i : Instr) => Runs i s fun t => t.lstate l.val = 0 ∧ t.cl = s.cl
    (∀ m : Fin 4, st = 1 → s.mst l.val m.val = 1 → m.val ∉ k.sideUp →
      (Runs (.sidebandUp l m) s fun t => (t.lnd l.val).sideUp = k.sideUp ++ [m.val] ∧
        (k.sideUp = [] → .cap l.val (s.ownCap l.val) ∈ t.out ∧ (t.lnd l.val).capSent = 1 ∧
          ∀ j < 4, t.word .LND_CAPL [l.val, j] = leAt (s.ownCap l.val) (8 * j) 8) ∧
        (k.sideUp ≠ [] → t = { s with land := t.land })) ∧
      Runs (.sidebandUpTimeout l m) s fun t => t.mst l.val m.val = 5 ∧ t.cl = s.cl) ∧
    (∀ m : Fin 4, st ≠ 1 ∨ s.mst l.val m.val ≠ 1 ∨ m.val ∈ k.sideUp →
      exec (.sidebandUp l m) s = .next s ∧ exec (.sidebandUpTimeout l m) s = .next s) ∧
    (st ≠ 1 ∨ k.sideUp = [] ∨ k.capOk = true → exec (.capabilityTimeout l) s = .next s) ∧
    (∀ d : Bytes, st ≠ 1 → s.torec l.val = true → crc32 (slice (slice d 0 32) 0 28) = leAt (slice d 0 32) 28 4 →
      Runs (.capabilityBlock l d) s fun t => t = { s with land := t.land } ∧
        t.lnd l.val = { k with capNext := some (slice d 0 32) }) ∧
    (∀ d : Bytes, st ≠ 1 ∨ k.sideUp = [] → s.torec l.val = false → exec (.capabilityBlock l d) s = .next s) ∧
    (st = 1 → k.sideUp ≠ [] → k.capOk = false →
      (k.capSent ≤ 1 → Runs (.capabilityTimeout l) s fun t => (t.lnd l.val).capSent = 2 ∧
        .cap l.val (s.ownCap l.val) ∈ t.out ∧ t.lstate l.val = 1) ∧
      (1 < k.capSent → down (.capabilityTimeout l))) ∧
    (∀ d : Bytes, st = 1 → k.sideUp ≠ [] →
      let b := slice d 0 32
      let ver := min 0x10 (leAt b 0 1)
      (crc32 (slice b 0 28) = leAt b 28 4 →
        (ver < max 0x10 (leAt b 1 1) ∨ bitAt (leAt b 2 1) 0 = false → down (.capabilityBlock l d)) ∧
        (max 0x10 (leAt b 1 1) ≤ ver → bitAt (leAt b 2 1) 0 = true → Runs (.capabilityBlock l d) s fun t =>
          t.fld F.LND_STAT.VER [l.val] = ver ∧ t.fld F.LND_STAT.CLS [l.val] = Nat.land 0x3F (leAt b 2 1) ∧
          t.fld F.LND_STAT.PPOS [l.val] = leAt b 4 1 % 64 ∧ (t.lnd l.val).capOk = true ∧
          (t.lnd l.val).cred = (List.range 6).map (fun c => leAt b (0x0C + c) 1) ∧
          ∀ j < 4, t.word .LND_CAPP [l.val, j] = leAt b (8 * j) 8)) ∧
      (crc32 (slice b 0 28) ≠ leAt b 28 4 →
        (k.capBad = 0 → Runs (.capabilityBlock l d) s fun t => (t.lnd l.val).capBad = 1 ∧
          .cap l.val (s.ownCap l.val) ∈ t.out) ∧
        (1 ≤ k.capBad → down (.capabilityBlock l d)))) ∧
    (∀ tr : Training, st = 1 →
      let torec := s.bit F.LND_CTL.TOREC [l.val] && k.capOk
      let cxl := tr.cxl && !tr.io && s.bit F.LND_CTL.CXL [l.val]
      let loop := s.bit F.DBG_CTL.SATEST [] && tr.loopback
      let good := tr.ok && tr.act != 0 && (loop || torec || cxl)
      let rate := min tr.rate.toNat (min 2 (s.fld F.LND_CTL.RMAX [l.val]))
      (good = false → down (.trainingComplete l tr)) ∧
      (good = true → tr.failed = [] → s.ledgerOk l.val = false → k.redFail = [] → (∀ m < 4, s.word .LND_FAIL [l.val, m] = 0) →
        (∃ m < 4, bitAt tr.act.toNat m = true ∧ s.mst l.val m = 1) → Runs (.trainingComplete l tr) s fun t =>
        t.lstate l.val = (if loop = true then 4
          else if torec = true ∧ s.bit F.DBG_CTL.SATEST [] = false ∧ s.fixedOk l.val rate = true then 3 else 2) ∧
        t.fld F.LND_STAT.RATE [l.val] = rate ∧ t.fld F.LND_STAT.PROTO [l.val] = b2n (!torec && cxl) ∧
        ∀ m < 4, t.mst l.val m = if s.mst l.val m ≠ 1 then s.mst l.val m
          else if bitAt tr.act.toNat m = false then 5
          else if bitAt tr.half.toNat m = true then (if bitAt tr.upper.toNat m = true then 4 else 3) else 2)) ∧
    (∀ tr : Training, st ≠ 1 → exec (.trainingComplete l tr) s = .next s) ∧
    (∀ f : Frame, st = 3 →
      (crc16 (s.frameBytes l.val f) ≠ f.fchk.toNat → Runs (.frameReceive l f) s fun t =>
        t.fld F.LND_CNT.FCHK [l.val] = satAdd 16 (s.fld F.LND_CNT.FCHK [l.val]) 1) ∧
      (∀ i < s.framePos l.val f, crc16 (s.frameBytes l.val f) = f.fchk.toNat → bits f.trailer.toNat 0 48 = 0 →
        ∀ (c g v : Nat), 2 ≤ v → (∀ j < s.framePos l.val f, frameVp f j = if j = i then v else 0) →
        s.slotGate l.val i = some (c, g) → s.voyaging (s.partOf c) = true →
        let due := dueOf (s.part (s.partOf c)).scyc (bits f.trailer.toNat 72 8)
        due < (s.part (s.partOf c)).scyc + 48 → (k.slip.filter (fun w => w.slot == i)).length < 48 →
        Runs (.frameReceive l f) s fun t =>
          let b := slice (listGet [] f.pos i) 0 64
          t = { s with land := t.land } ∧ (∀ j, j ≠ l.val → t.lnd j = s.lnd j) ∧
          t.lnd l.val = { k with slip := k.slip ++ [⟨i, due, b, v == 3, crc16 b⟩] }) ∧
      (∀ i < s.framePos l.val f, crc16 (s.frameBytes l.val f) = f.fchk.toNat → bits f.trailer.toNat 0 48 = 0 →
        (∀ j < s.framePos l.val f, frameVp f j = if j = i then 1 else 0) → Runs (.frameReceive l f) s fun t =>
          let seq := leAt (slice (listGet [] f.pos i) 0 64) 0 2 / 256
          t = { s with land := t.land } ∧ (∀ j, j ≠ l.val → t.lnd j = s.lnd j) ∧
          (t.lnd l.val).rxSeq = if seq = (k.rxSeq + 1) % 256 then seq else k.rxSeq)) ∧
    (∀ f : Frame, st ≠ 3 → exec (.frameReceive l f) s = .next s) ∧
    (∀ (n : Fin 8) (c g : Nat) (w : SlipWord), s.slotGate l.val n.val = some (c, g) →
      k.slip.find? (fun w => w.slot == n.val && w.due == (s.part (s.partOf c)).scyc) = some w →
      Runs (.slipDelivery l n) s fun t => (t.lnd l.val).slip = k.slip.filter (· != w) ∧ OnlyCluster c { s with land := t.land } t ∧
        (t.clu c).links = (s.clu c).links ++ [⟨(s.gwPort c g).getD 0, w.due, w.due, w.data, w.poison, w.crc, false⟩]) ∧
    (∀ n : Fin 8, (∀ c g, s.slotGate l.val n.val = some (c, g) →
      k.slip.find? (fun w => w.slot == n.val && w.due == (s.part (s.partOf c)).scyc) = none) →
      exec (.slipDelivery l n) s = .next s) ∧
    (st = 3 → Runs (.elasticResend l) s fun t => t = { s with land := t.land, out := t.out, free := t.free } ∧
      ∀ u ∈ k.unacked, .unit l.val u.1 k.rxSeq u.2 ∈ t.out) ∧
    (st ≠ 3 → exec (.elasticResend l) s = .next s) ∧
    (∀ (m : Fin 4) (lane : Fin 72) (n : Nat), st < 2 ∨ st = 4 ∨ carries (s.mst l.val m.val) = false →
      exec (.laneError l m lane n) s = .next s) ∧
    (∀ (m : Fin 4) (lane : Fin 72) (n : Nat), st = 2 ∨ st = 3 → carries (s.mst l.val m.val) = true → 68 ≤ lane.val →
      k.chg = none → k.wait = [] → k.partner = [] → Runs (.laneError l m lane n) s fun t =>
        t = { s with land := t.land, out := t.out } ∧ .rtreq l.val s.pos (s.fld F.LND_MOD.PMOD [l.val, m.val]) 2 ∈ t.out) ∧
    (∀ (m : Fin 4) (lane : Fin 72) (n : Nat), st = 2 ∨ st = 3 → carries (s.mst l.val m.val) = true → 64 ≤ lane.val →
      lane.val < 68 → SMap.get 0 k.perr (128 * m.val + lane.val) + n < max 1 (s.fld F.LND_THR.LTHR [l.val]) →
      Runs (.laneError l m lane n) s fun t => t = { s with land := t.land } ∧
        SMap.get 0 (t.lnd l.val).perr (128 * m.val + lane.val) = SMap.get 0 k.perr (128 * m.val + lane.val) + n) ∧
    (∀ (m : Fin 4) (lane : Fin 72) (n : Nat), st = 2 ∨ st = 3 → carries (s.mst l.val m.val) = true → lane.val < 64 →
      let old := SMap.get 0 k.perr (128 * m.val + lane.val)
      let thr := max 1 (s.fld F.LND_THR.LTHR [l.val])
      let f := lerrFld m.val lane.val
      (old + n < thr → Runs (.laneError l m lane n) s fun t => t = { s with regs := t.regs, land := t.land } ∧
        t.fld f.1 [l.val, f.2] = satAdd f.1.w (s.fld f.1 [l.val, f.2]) n ∧ RegsBut [regAddr .LND_LERR [l.val, f.2]] s t ∧
        SMap.get 0 (t.lnd l.val).perr (128 * m.val + lane.val) = old + n) ∧
      (old < thr → thr ≤ old + n → bitAt (s.fld F.LND_FAIL.FAIL [l.val, m.val]) lane.val = false →
        Runs (.laneError l m lane n) s fun t => t.fld F.LND_FAIL.FAIL [l.val, m.val] =
          setBit (s.fld F.LND_FAIL.FAIL [l.val, m.val]) lane.val true ∧ t.cl = s.cl ∧
          (s.evq.length < 1024 → ∃ e ∈ t.evq, e.code = 0x0601)))

/-- A module change is asked for, agreed, refused or given up by its rule, and modules leave and return as the change
says. For a clocked die: a partner's request is accepted where no change is in progress, refused where one is agreed
or where, no failed lane asking for it, it would leave too few modules, and where both ends ask at once decided for
the lower position, equal positions dropping the change; an accepted change is marked; a refusal or a missing answer
drops it and ends its command with RES 1 or 3; a command of firmware on a carrying module is asked of the partner
unless it would leave too few modules (RES 1), one that is busy or by another requester refused; RESTORE takes a
module that carries nothing out to retrain; a retrained module asks to return; one that does not return, or loses
lock, is retired; a partner's retrain takes a module out and back; a retry is counted. -/
def Obligations.ModuleChangesAreAskedAgreedAndEnded : Prop :=
  ∀ (s : State) (l : Fin 8) (m : Fin 4), s.coreOn = true →
    let k := s.lnd l.val
    let st := s.lstate l.val
    let up := st = 2 ∨ st = 3
    let mst := s.mst l.val m.val
    let rt := fun (t : State) (busy res : Nat) => t.fld F.LND_RTCMD.BUSY [l.val] = busy ∧ t.fld F.LND_RTCMD.RES [l.val] = res
    let theirs := fun (t : State) (kind : Nat) => .rtack l.val ∈ t.out ∧
      ∃ c, (t.lnd l.val).chg = some c ∧ c.m = m.val ∧ c.kind = kind ∧ c.own = false ∧ c.acked = true
    (∀ (pos : BitVec 6) (kind : Fin 6), ¬up → exec (.rtreq l pos m kind) s = .next s) ∧
    (∀ (pos : BitVec 6) (kind : Fin 6), up → 4 ≤ kind.val → s.tooFew l.val m.val = true →
      exec (.rtreq l pos m kind) s = .next { s with out := .rtnak l.val :: s.out }) ∧
    (∀ (pos : BitVec 6) (kind : Fin 6), up → kind.val < 4 ∨ s.tooFew l.val m.val = false →
      let base := if kind.val < 4 then kind.val else kind.val - 3
      (k.chg = none → Runs (.rtreq l pos m kind) s fun t => theirs t base ∧ t.regs = s.regs) ∧
      (∀ c, k.chg = some c →
        (c.own = false ∨ c.acked = true → exec (.rtreq l pos m kind) s = .next { s with out := .rtnak l.val :: s.out }) ∧
        (c.own = true → c.acked = false →
          (pos.toNat = s.pos → k.wait = [] → Runs (.rtreq l pos m kind) s fun t => (t.lnd l.val).chg = none ∧
            (c.cmd = true → rt t 0 2)) ∧
          (s.pos < pos.toNat → exec (.rtreq l pos m kind) s = .next s) ∧
          (pos.toNat < s.pos → Runs (.rtreq l pos m kind) s fun t => theirs t base ∧
            (t.lnd l.val).wait = if c.cmd = true then k.wait else c :: k.wait)))) ∧
    (∀ c, k.chg = some c → c.own = true → c.acked = false →
      (Runs (.rtack l) s fun t => (t.lnd l.val).chg = some { c with acked := true } ∧ t = { s with land := t.land, out := t.out } ∧
        .agree l.val (s.period + if s.fld F.TDE_TSTAT.STATE [] ≤ 1 then 1 else 2) (1 - s.fld F.LND_STAT.EPOCH [l.val])
          (s.newSet l.val c) ∈ t.out) ∧
      (k.wait = [] →
        (Runs (.rtnak l) s fun t => (t.lnd l.val).chg = none ∧ t.cl = s.cl ∧ (c.cmd = true → rt t 0 1)) ∧
        Runs (.rtreqTimeout l) s fun t => (t.lnd l.val).chg = none ∧ t.cl = s.cl ∧ (c.cmd = true → rt t 0 3))) ∧
    ((∀ c, k.chg = some c → c.own = false ∨ c.acked = true) →
      ∀ i ∈ [Instr.rtack l, .rtnak l, .rtreqTimeout l], exec i s = .next s) ∧
    (∀ q : Requester,
      let none_ := fun (i : Instr) => Runs i s fun t => t = { s with regs := t.regs, lastStat := stOk } ∧ rt t 0 3
      let free := isFw q = true ∧ s.fld F.LND_RTCMD.BUSY [l.val] = 0
      (isFw q = false → ∀ i ∈ [Instr.rtcmdRetrain q l m, .rtcmdRetire q l m, .rtcmdRestore q l m], Runs i s (Denied s)) ∧
      (free → ¬up → none_ (.rtcmdRetrain q l m) ∧ none_ (.rtcmdRetire q l m) ∧ none_ (.rtcmdRestore q l m)) ∧
      (free → up → carries mst = false → none_ (.rtcmdRetrain q l m) ∧ none_ (.rtcmdRetire q l m) ∧
        (mst = 6 → none_ (.rtcmdRestore q l m))) ∧
      let ask := fun (i : Instr) (op kind code : Nat) =>
        (isFw q = true → s.fld F.LND_RTCMD.BUSY [l.val] = 1 → exec i s = .next { s with lastStat := stBusy }) ∧
        (isFw q = true → s.fld F.LND_RTCMD.BUSY [l.val] = 0 → up → carries mst = true →
          (s.tooFew l.val m.val = true → Runs i s fun t => t = { s with regs := t.regs, lastStat := stOk } ∧ rt t 0 1) ∧
          (s.tooFew l.val m.val = false → k.chg = none → k.wait = [] → k.partner = [] → Runs i s fun t =>
            t.lastStat = stOk ∧ rt t 1 0 ∧ t.fld F.LND_RTCMD.OP [l.val] = op ∧ t.fld F.LND_RTCMD.MOD [l.val] = m.val ∧
            t.mst l.val m.val = mst ∧ .rtreq l.val s.pos (s.fld F.LND_MOD.PMOD [l.val, m.val]) code ∈ t.out ∧
            ∃ c, (t.lnd l.val).chg = some c ∧ c.own = true ∧ c.cmd = true ∧ c.m = m.val ∧ c.kind = kind))
      ask (.rtcmdRetrain q l m) 1 1 4 ∧ ask (.rtcmdRetire q l m) 2 2 5 ∧ ask (.rtcmdRestore q l m) 3 1 4 ∧
      (isFw q = true → s.fld F.LND_RTCMD.BUSY [l.val] = 0 → up → carries mst = false → mst ≠ 6 →
        Runs (.rtcmdRestore q l m) s fun t => t.mst l.val m.val = 6 ∧ rt t 1 0 ∧
          t.fld F.LND_MOD.NRT [l.val, m.val] = satAdd 16 (s.fld F.LND_MOD.NRT [l.val, m.val]) 1)) ∧
    (∀ c, mst = 6 → k.retr.find? (fun c => c.m == m.val) = some c →
      (k.chg = none → k.wait = [] → k.partner = [] → c.own = true → c.kind = 3 → Runs (.moduleRetrainComplete l m) s fun t =>
        .rtreq l.val s.pos (s.fld F.LND_MOD.PMOD [l.val, m.val]) 3 ∈ t.out ∧ (t.lnd l.val).chg = some { c with acked := false, sealed := false } ∧
        t.regs = s.regs) ∧
      Runs (.retrainTimeout l m) s fun t => t.mst l.val m.val = 5 ∧ t.cl = s.cl ∧
        (c.cmd = true → s.fld F.LND_RTCMD.BUSY [l.val] = 1 → rt t 0 3)) ∧
    (mst ≠ 6 ∨ k.retr.find? (fun c => c.m == m.val) = none →
      exec (.moduleRetrainComplete l m) s = .next s ∧ exec (.retrainTimeout l m) s = .next s) ∧
    (mst ≠ 1 → mst ≠ 6 → carries mst = false → exec (.moduleLockLoss l m) s = .next s) ∧
    (mst = 1 ∨ mst = 6 ∨ carries mst = true → Runs (.moduleLockLoss l m) s fun t => t.mst l.val m.val = 5 ∧
      t.fld F.LND_STAT.EPOCH [l.val] = if carries mst = true then 1 - s.fld F.LND_STAT.EPOCH [l.val]
        else s.fld F.LND_STAT.EPOCH [l.val]) ∧
    (up → carries mst = true → (∃ j < 4, j ≠ m.val ∧ carries (s.mst l.val j) = true) → Runs (.partnerRetrain l m false) s fun t =>
      t.mst l.val m.val = 6 ∧ t.lstate l.val = st ∧ (t.lnd l.val).partner = k.partner ++ [m.val * 8 + mst]) ∧
    (carries mst = false ∨ ¬up → exec (.partnerRetrain l m false) s = .next s) ∧
    (k.partner.find? (fun x => x / 8 == m.val) = none → exec (.partnerRetrain l m true) s = .next s) ∧
    (∀ x, k.partner.find? (fun x => x / 8 == m.val) = some x → Runs (.partnerRetrain l m true) s fun t =>
      t.mst l.val m.val = x % 8 ∧ ∀ y ∈ (t.lnd l.val).partner, y / 8 ≠ m.val) ∧
    (st = 2 → Runs (.adapterRetry l) s fun t => t = { s with regs := t.regs } ∧ RegsBut [regAddr .LND_CNT [l.val]] s t ∧
      t.fld F.LND_CNT.RETRY [l.val] = satAdd 16 (s.fld F.LND_CNT.RETRY [l.val]) 1) ∧
    (st ≠ 2 → exec (.adapterRetry l) s = .next s)

/-- A control step sets energies, caps, rail and bubble densities and the burst credit by their laws. For a clocked
die, a control step adds the measured energy to DENERGY, which saturates, shows power and the cap in force, moves the
burst credit by the difference from PENV within 0 and QMAX, and ends a droop. Each rail of the law shows its voltage
and currents, and its density is 0 without an excess, else the excess over the dynamic current of the partitions (what
they are attributed less what their held ccy draw, as if without bubbles), counted. The density of each existing
partition is 255 under a clamp, else the greater of its cap and rail densities, falling by 16 at most, and not at all
in a droop; one that does not exist keeps its word. No cluster changes. The cap law gives one density of at most 255
for each partition, and 0 for all where the sum is within the cap. -/
def Obligations.PowerStepsFollowTheirLaws : Prop :=
  (∀ (s : State) (m : PowerMeas), s.coreOn = true → Runs (.powerControlStep m) s fun t =>
    let total := m.railEnergy.foldl (· + ·) 0
    let power := 2000 * total
    t.cl = s.cl ∧ t.pt = s.pt ∧ t.pow.droop = false ∧ t.fld F.PWR_DPWR.P [] = min power (2 ^ 20 - 1) ∧
    t.fld F.PWR_STAT.CAP [] = min s.cap_ (2 ^ 20 - 1) ∧
    t.fld F.PWR_DENERGY.E [] = satAdd 64 (s.fld F.PWR_DENERGY.E []) total ∧
    t.pow.q = (if s.penv < power then s.pow.q - (power - s.penv)
      else min (2000000 * min 4000 (s.fld F.PWR_CTL.QMAX [])) (s.pow.q + (s.penv - power))) ∧
    (∀ p < 16, (s.exists_ p = true → t.fld F.PWR_PBUB.D [p] =
        max (if s.clampedPart m p = true then 255 else max (t.fld F.PWR_PBUB.DCAP [p]) (t.fld F.PWR_PBUB.DRMAX [p]))
          (if s.pow.droop = true then s.fld F.PWR_PBUB.D [p] else s.fld F.PWR_PBUB.D [p] - 16)) ∧
      (s.exists_ p = false → t.word .PWR_PBUB [p] = s.word .PWR_PBUB [p])) ∧
    ∀ n < 35,
      let x := max (listGet 0 m.i2 n - s.ilim n) (listGet 0 m.i20 n - s.iwear n)
      let held := fun (p : Nat) => if 64 ≤ (listGet (0, 0) m.held p).1 then 100 * min (listGet (0, 0) m.held p).2 (2 ^ 20 - 1)
        else s.held100 m p
      let y := sumList (((List.range 16).filter s.exists_).map fun p =>
        20000 * s.attributed m p n * (200000 * s.partEnergy m p - held p) * 256 /
          (200000 * s.partEnergy m p * (256 - s.fld F.PWR_PBUB.D [p]) * listGet 0 m.mv n))
      let count := t.fld F.PWR_RAIL_STAT.LIMEV [n]
      t.fld F.PWR_RAIL_STAT.V [n] = min (listGet 0 m.mv n) 4095 ∧
      t.fld F.PWR_RAIL_STAT.I2 [n] = min (listGet 0 m.i2 n) 4095 ∧ t.fld F.PWR_RAIL_STAT.I20 [n] = min (listGet 0 m.i20 n) 4095 ∧
      (x = 0 → t.fld F.PWR_RAIL_STAT.DR [n] = 0 ∧ count = s.fld F.PWR_RAIL_STAT.LIMEV [n]) ∧
      (x ≠ 0 → y ≠ 0 → t.fld F.PWR_RAIL_STAT.DR [n] = min 255 (cdiv (256 * x) y) ∧
        count = satAdd 16 (s.fld F.PWR_RAIL_STAT.LIMEV [n]) 1)) ∧
  ∀ (ps : List CapIn) (cap ov : Nat), (capLaw ps cap ov).length = ps.length ∧ (∀ d ∈ capLaw ps cap ov, d ≤ 255) ∧
    (sumInt (ps.map (·.u (capDen ps))) + ((ov * capDen ps : Nat) : Int) ≤ ((cap * capDen ps : Nat) : Int) → ∀ d ∈ capLaw ps cap ov, d = 0)

/-- Sensors, throttle level, clamps, the trip and the droop detector act by their rules, and the debug tests start and
end. Out of reset: a sample of 64 sensors sets each TSENS, TJ to the highest and HOT to the lowest sensor that shows
it; the throttle level rises at once to what TJ asks, and falls by one only after 10 ms of samples below its release
point; a trip latches its cause and source, takes every landing down, raises THERMTRIP and stops the clocked die,
once. For a clocked die: a clamp is taken once, counted, and released; a margin below DDTHR counts and, where enabled,
marks a droop, one at or above it ends the run. A debug holder starts a loop test, refused outside its conditions, and
arms a capture that is not armed; a test that ends shows as CLEAN the modules in LOOP that saw no error. -/
def Obligations.SensorsThrottleClampTripAndDroop : Prop :=
  ∀ s : State,
    (∀ ts : List Int, s.inReset = false → ts.length = 64 → (∀ x ∈ ts, -2048 ≤ x ∧ x ≤ 2047) → Runs (.thermalSample ts) s fun t =>
      let tj := sext 12 (t.fld F.PWR_TSTAT.TJ [])
      let hot := t.fld F.PWR_TSTAT.HOT []
      t = { s with regs := t.regs, pow := { s.pow with cool := t.pow.cool } } ∧
      (∀ k < 16, SMap.get 0 t.pow.cool k = if tj < s.releasePoint k then min 1000 (SMap.get 0 s.pow.cool k + 1) else 0) ∧
      (∀ n < 64, sext 12 (t.fld F.PWR_TSENS.T [n]) = listGet 0 ts n ∧ listGet 0 ts n ≤ tj) ∧
      listGet 0 ts hot = tj ∧ (∀ n < hot, listGet 0 ts n < tj)) ∧
    (s.inReset = false →
      let old := s.fld F.PWR_TSTAT.TLVL []
      let up := min 15 (sext 12 (s.fld F.PWR_TSTAT.TJ []) / 16 - (s.fld F.PWR_THCFG.TTHR [] : Int) + 1).toNat
      let c := SMap.get 0 s.pow.cool old
      ∀ same : Nat, Runs (.throttleUpdate same) s fun t => t.cl = s.cl ∧ t.fld F.PWR_TSTAT.TLVL [] =
        if old < up then up else if 1000 ≤ (if c = 0 then 0 else c + same) then old - 1 else old) ∧
    (s.inReset = false → ∀ (i : Instr) (cause src : Nat),
      ((∃ n : Fin 64, i = .thermalTrip n ∧ cause = 1 ∧ src = n.val) ∨ (∃ n : Fin 36, i = .railFault n ∧ cause = 2 ∧ src = n.val)) →
      (s.bit F.PWR_TSTAT.TRIP [] = true → exec i s = .next s) ∧
      (s.bit F.PWR_TSTAT.TRIP [] = false → Runs i s fun t => t.coreOn = false ∧ t.fld F.PWR_TSTAT.TCAUSE [] = cause ∧
        t.fld F.PWR_TSTAT.TSRC [] = src ∧ t.pads.thermtrip = true ∧ t.cl = s.cl ∧ t.od = s.od ∧
        ∀ l < 8, t.lstate l = 0 ∧ ∀ m < 4, t.mst l m = 0)) ∧
    (s.coreOn = true →
      (∀ n : Fin 36,
        (n.val ∉ s.pow.clamped → Runs (.overcurrentClamp n) s fun t => t.pow.clamped = n.val :: s.pow.clamped ∧
          t.fld F.PWR_RAIL_STAT.CLMP [n.val] = 1 ∧ t.fld F.PWR_STAT.CLMP [] = 1 ∧ t.cl = s.cl ∧
          t.fld F.PWR_CNT.CLAMP [] = satAdd 16 (s.fld F.PWR_CNT.CLAMP []) 1) ∧
        (n.val ∈ s.pow.clamped → exec (.overcurrentClamp n) s = .next s ∧ ∀ ns : Nat, Runs (.clampRelease n ns) s fun t =>
          t.pow.clamped = s.pow.clamped.filter (· != n.val) ∧ t.fld F.PWR_RAIL_STAT.CLMP [n.val] = 0 ∧
          (t.fld F.PWR_STAT.CLMP [] = 0 ↔ t.pow.clamped = []) ∧ t.cl = s.cl) ∧
        (n.val ∉ s.pow.clamped → ∀ ns : Nat, exec (.clampRelease n ns) s = .next s)) ∧
      (∀ (r : Fin 25) (mv : Nat), Runs (.droopDetect r mv) s fun t =>
        let run := SMap.get 0 s.pow.droopRun r.val
        t.fld F.PWR_DROOP.MIN [r.val] = min (s.fld F.PWR_DROOP.MIN [r.val]) mv ∧ t.cl = s.cl ∧
        (s.fld F.PWR_DIDT.DDTHR [] ≤ mv → SMap.get 0 t.pow.droopRun r.val = 0 ∧
          t.fld F.PWR_DROOP.EVT [r.val] = s.fld F.PWR_DROOP.EVT [r.val]) ∧
        (mv < s.fld F.PWR_DIDT.DDTHR [] → t.fld F.PWR_DROOP.EVT [r.val] = satAdd 16 (s.fld F.PWR_DROOP.EVT [r.val]) 1 ∧
          (s.fld F.PWR_DIDT.DIEN [] = 0 → t.pow = { s.pow with delayLeft := t.pow.delayLeft }) ∧
          (s.fld F.PWR_DIDT.DIEN [] = 1 → t.pow.droop = true ∧ SMap.get 0 t.pow.droopRun r.val = run + 1))) ∧
      (∀ (q : Requester) (v : W64), (s.rightsOf q).debug = false →
        (bits v.toNat 56 4 = 1 → Runs (.loopTestStart q v) s (Denied s)) ∧
        (bitAt v.toNat 63 = true → Runs (.captureArm q v) s (Denied s))) ∧
      (∀ (q : Requester) (v : W64), (s.rightsOf q).debug = true →
        (bits v.toNat 56 4 = 1 →
          let bad := s.fld F.DBG_CTL.SATEST [] = 0 ∨ (∃ l < 8, s.fld F.LND_CTL.EN [l] = 1 ∧ s.lstate l ≠ 4) ∨ s.bring.status = 1
          (s.fld F.DBG_LOOP.BUSY [] = 1 → exec (.loopTestStart q v) s = .next { s with lastStat := stBusy }) ∧
          (s.fld F.DBG_LOOP.BUSY [] = 0 → Runs (.loopTestStart q v) s fun t => t = { s with regs := t.regs, lastStat := stOk } ∧
            RegsBut [regAddr .DBG_LOOP []] s t ∧ (bad → t.fld F.DBG_LOOP.BUSY [] = 0 ∧ t.fld F.DBG_LOOP.RES [] = 1) ∧
            (¬ bad → t.fld F.DBG_LOOP.BUSY [] = 1 ∧ t.fld F.DBG_LOOP.RES [] = 0 ∧
              t.fld F.DBG_LOOP.DUR [] = bits v.toNat 20 20 ∧ t.fld F.DBG_LOOP.PAT [] = bits v.toNat 52 3))) ∧
        (bitAt v.toNat 63 = true →
          (s.fld F.DBG_CAP.ARM [] = 1 → exec (.captureArm q v) s = .next { s with lastStat := stBusy }) ∧
          (s.fld F.DBG_CAP.ARM [] = 0 → Runs (.captureArm q v) s fun t => t.word .DBG_CAP [] = v.toNat ∧ t.lastStat = stOk ∧
            t.cap = (s.scycOf (bits v.toNat 52 11), 0) ∧ RegsBut [regAddr .DBG_CAP []] s t))) ∧
      (∀ (errs : List LoopErr) (eye : List Nat), s.fld F.DBG_LOOP.BUSY [] = 0 → exec (.loopTestEnd errs eye) s = .next s) ∧
      (∀ (errs : List LoopErr) (eye : List Nat), s.fld F.DBG_LOOP.BUSY [] = 1 → Runs (.loopTestEnd errs eye) s fun t =>
        t.fld F.DBG_LOOP.BUSY [] = 0 ∧ t.fld F.DBG_LOOP.RES [] = 0 ∧ t = { s with regs := t.regs } ∧ ∀ i < 32,
          let on := s.lstate (i / 4) = 4 ∧ carries (s.mst (i / 4) (i % 4)) = true
          (bitAt (t.fld F.DBG_LOOPST.CLEAN []) i = true ↔ on ∧ ∀ e ∈ errs, modIx e.land.val e.m.val = i → e.n = 0) ∧
          (on → t.fld F.LND_MOD.EYE [i / 4, i % 4] = min 4095 (listGet 0 eye i))))

/-- Each bring-up step works while it is busy, leaves what its table gives it, and ends DONE or FAILED with its cause.
Out of reset, and clocked where a step needs it: a step's command acts only while that step is BUSY and has done no
work. PROBE, FIRMWARE, STRAPS and MAP check and take cause 1, 2 or 3, or leave the running image, the straps and the
maps; TRAIN puts every enabled landing in TRAIN; TEST adds what it finds to the field map; ZERO clears every store,
tally and berth; CLOCK unlocks the PLLs and leaves no fixed-latency landing; SEAL seals once two tides agreed; RUN
enables front end, ferry and charts. A step whose work is over ends DONE, marked, or FAILED with its cause. The
reference locks, holds over and expires; a lost candidate stops each through-sailing voyage, which ends with FCODE
0x41; a candidate's clock is shown. -/
def Obligations.BringUpStepsDoTheirWorkAndEnd : Prop :=
  ∀ s : State, s.coreOn = true →
    let works := fun (i : Instr) (c cause : Nat) (P : State → Prop) => s.stepping c = true → s.bring.work = none → Runs i s fun t =>
      t.bring = { s.bring with work := some cause } ∧ P t
    let same := fun (t : State) => t = { s with bring := t.bring }
    (∀ (i : Instr) (c : Nat), ((∃ a b, i = .stepProbe a b ∧ c = 1) ∨ (i = .stepFirmware ∧ c = 2) ∨ (∃ a, i = .stepStraps a ∧ c = 3) ∨
        (i = .stepTrain ∧ c = 4) ∨ (i = .stepMap ∧ c = 5) ∨ (∃ a b, i = .stepTest a b ∧ c = 6) ∨ (∃ a, i = .stepZero a ∧ c = 7) ∨
        (i = .stepClock ∧ c = 8) ∨ (i = .stepHelm ∧ c = 9) ∨ (i = .stepSeal ∧ c = 10) ∨ (i = .stepRun ∧ c = 11)) →
      s.stepping c = false ∨ s.bring.work ≠ none → exec i s = .next s) ∧
    (∀ fuse rom : Bool, works (.stepProbe fuse rom) 1 (if fuse = false then 1 else if rom = false then 2 else 0) same) ∧
    (let k := s.odNat 0x7002 2 0
     (∀ c, s.fwCheck (s.slotImg k) = some c → works .stepFirmware 2 c fun t => t.mpst = s.mpst) ∧
     (s.fwCheck (s.slotImg k) = none → works .stepFirmware 2 0 fun t => t.mpst = 1 ∧ t.fld F.ID_SEC.BOOTOK [] = 1 ∧
       t.fld F.MGT_STAT.SLOT [] = k % 2 ∧ t.fld F.MGT_STAT.FWVER [] = imgVer (s.slotImg k) % 2 ^ 32)) ∧
    (∀ (x : Straps) (r : List Straps),
      ((∀ y ∈ (x :: r).take 4, y = x) → x.pos = s.pads.straps.pos → works (.stepStraps (x :: r)) 3 0 fun t =>
        t.fld F.ID_STRAP.POS [] = x.pos.toNat ∧ t.fld F.ID_STRAP.ORIENT [] = b2n x.orient ∧
        t.fld F.ID_STRAP.HCAND [] = b2n x.hcand ∧ t.pads.straps = x) ∧
      ((∃ y ∈ (x :: r).take 4, y.pos ≠ s.pads.straps.pos) → works (.stepStraps (x :: r)) 3 1 same)) ∧
    works .stepTrain 4 0 (fun t => ∀ l < 8, t.lstate l = if s.bit F.LND_CTL.EN [l] = true then 1 else s.lstate l) ∧
    (∀ b c, SMap.find s.od (0x1102 * 256 + 1) = some b → s.mapCheck b = some c → works .stepMap 5 c same) ∧
    ((SMap.find s.od (0x1102 * 256 + 1)).bind s.mapCheck = none → works .stepMap 5 0 fun t => ∀ c, s.enabled c = true →
      let rs := s.recsOf c
      let good := ((List.range 66).filter (fun x => !siteBad rs x)).length
      let perm := rs.any (fun r => r.kind = 3 ∨ r.kind = 4) ∨ good < 64
      (t.fld F.CLU_CSITE.PERM [c] = 1 ↔ perm) ∧ (perm → t.fld F.CLU_CSITE.NSPARE [c] = 0) ∧
      (¬ perm → t.fld F.CLU_CSITE.NSPARE [c] = good - 64) ∧
      ∀ x < 64, bitAt (t.fld F.CLU_CBAD_0.BAD [c]) x = siteBad rs x) ∧
    (∀ ds : List DefectRec, works (.stepTest false ds) 6 1 same ∧
      works (.stepTest true ds) 6 0 fun t => t.fmap = s.fmap ++
        ((ds.filter (fun d => recNames (recBytes d))).map (fun d => { d with src := 1 })).take (4096 - s.fmap.length)) ∧
    works (.stepZero false) 7 1 same ∧
    works (.stepZero true) 7 0 (fun t => t.cl = [] ∧ t.tnet = [] ∧ (∀ x < 16384, t.word .TDE_TAL [x] = 0 ∧ t.word .TDE_TCNT [x] = 0) ∧
      ∀ c < 1250, ∀ h < 128, t.word .CLU_BERTH [c, h] = 0) ∧
    works .stepClock 8 0 (fun t => t.fld F.CLK_REF.LOCK [] = 0 ∧ t.fld F.CLK_REF.REFSEL [] = s.odNat 0x3010 1 0 % 2 ∧
      (∀ l < 8, t.lstate l ≠ 3) ∧
      t.fld F.CLK_CCLK.CUR [] = if s.tide.begun = true then s.fld F.CLK_CCLK.CUR [] else s.odNat 0x3010 2 2000000 % 2 ^ 22) ∧
    works .stepHelm 9 0 same ∧
    (2 ≤ s.bring.agree → works .stepSeal 10 0 fun t => t.fld F.ID_SEC.SEALED [] = 1 ∧ t.fld F.MGT_STAT.SEALED [] = 1) ∧
    (s.bring.agree < 2 → exec .stepSeal s = .next s) ∧
    works .stepRun 11 0 (fun t => t.fld F.FE_CTL.EN [] = 1 ∧ t.fld F.FE_CTL.COHEN [] = 1 ∧ t.fld F.FRY_CTL.EN [] = 1 ∧
      t.fld F.CHT_CTL.EN [] = 1) ∧
    (∀ us : Nat, (s.bring.status ≠ 1 ∨ s.stepResult = none → exec (.stepDone us) s = .next s) ∧
      (s.bring.status = 1 → ∀ c, s.stepResult = some c → Runs (.stepDone us) s fun t => t.cl = s.cl ∧ t.bring.work = none ∧
        t.bring.status = (if c = 0 then 2 else 3) ∧ t.bring.cause = (if c = 0 then 0 else s.bring.step * 256 + c) ∧
        t.bring.doneMask = (if c = 0 then Nat.lor s.bring.doneMask (2 ^ s.bring.step) else s.bring.doneMask) ∧
        (c ≠ 0 → same t))) ∧
    (s.fld F.CLK_REF.LOCK [] = 0 → Runs .referenceLock s fun t => t.fld F.CLK_REF.LOCK [] = 1 ∧ t.fld F.CLK_REF.HOLD [] = 0 ∧
      t.fld F.CLK_PLL.CORE [] = 1 ∧ t.fld F.CLK_PLL.LAND [] = 0xFF ∧ t.cl = s.cl) ∧
    (s.fld F.CLK_REF.LOCK [] = 1 → exec .referenceLock s = .next s) ∧
    (s.fld F.CLK_REF.LOCK [] = 1 → Runs .candidateEdgeTimeout s fun t => t.fld F.CLK_REF.LOCK [] = 0 ∧
      t.fld F.CLK_REF.HOLD [] = 1 ∧ t.fld F.CLK_REF.LOSS [] = satAdd 16 (s.fld F.CLK_REF.LOSS []) 1 ∧
      ((∀ x ∈ s.tnet, x.1 < 16384) → ∀ p < 16, s.sailsThrough p = true →
        (s.voyaging p = true → (s.part p).recov = none → (t.part p).live = true ∧ t.fld F.FLT_PREC.STATE [p] = 1 ∧
          ∃ r e, (t.part p).recov = some r ∧ r.ccy = (s.part p).pccy + 12 ∧ r.fin = some e ∧ e.status = 0x13 ∧ e.fcode = 0x41) ∧
        (s.voyaging p = false → (t.part p).live = false)) ∧
      ((∀ p < 16, s.sailsThrough p = false) → ∀ l < 8, t.lstate l ≠ 3)) ∧
    (s.fld F.CLK_REF.LOCK [] = 0 → exec .candidateEdgeTimeout s = .next s) ∧
    (s.fld F.CLK_REF.HOLD [] = 1 → s.fld F.CLK_REF.LOCK [] = 0 → Runs .holdoverExpiry s fun t => t.fld F.CLK_REF.HOLD [] = 0 ∧
      (∀ l < 8, t.lstate l = 0) ∧ ∀ p < 16, (t.part p).live = false) ∧
    (s.fld F.CLK_REF.HOLD [] = 0 ∨ s.fld F.CLK_REF.LOCK [] = 1 → exec .holdoverExpiry s = .next s) ∧
    (∀ (k : Fin 2) (on : Bool), Runs (.candidateClockChange k on) s fun t => t = { s with regs := t.regs } ∧
      RegsBut [regAddr .CLK_REF []] s t ∧ t.fld (if k.val = 0 then F.CLK_REF.CAND0 else F.CLK_REF.CAND1) [] = b2n on)

/-- Images, activation, commit, swap, attestation, dump, watchdog, load, sensors, log copy and fatal errors act by
their rules. Out of reset, with firmware running and the mailbox open: an image is written to the slot that does not
run; ACTIVATE makes a swap pending where the checks pass, and else tells that they failed; COMMIT raises SVNMIN up to
the running image; a 48-byte NONCE starts a report, which then holds it; DUMPREQ with no region ends a dump with
status 4. In RECON a swap starts the new slot, its kick makes it run, and a missing kick brings the old one back. The
watchdog counts a restart; load windows set and clear shedding; samples publish readings; the log copy moves its index
once its writes are acknowledged; a fatal error stops every voyage and halts the MP, or resets the die. While
shedding, or with a full mailbox, a request is answered BUSY; while no firmware runs it waits. -/
def Obligations.FirmwareUpdatesLogsAndSensorsWork : Prop :=
  ∀ s : State, s.inReset = false →
    let slot := s.fld F.MGT_STAT.SLOT []
    let post := fun (t : State) => t.cl = s.cl ∧ t.pt = s.pt
    (∀ q : Requester, s.reaches q = true → q ≠ .tap → s.mpst = 1 → s.fld F.MGT_STAT.SHED [] = 0 → s.mp.mbox.length < 64 →
      let ustat := fun (t : State) => t.odNat 0x7002 5 0
      (s.holds q 5 0 = true →
        (∀ (k : Fin 2) (b : Bytes),
          (k.val ≠ slot → b.length ≤ 196608 → Runs (.imageWrite q k b) s fun t => t.lastStat = stOk ∧ t.slotImg k.val = b ∧
            t.slotImg slot = s.slotImg slot ∧ post t) ∧
          (196608 < b.length → Runs (.imageWrite q k b) s fun t => t.lastStat = stType ∧
            t.mp.slotA = s.mp.slotA ∧ t.mp.slotB = s.mp.slotB) ∧
          (k.val = slot → b.length ≤ 196608 → Runs (.imageWrite q k b) s fun t => t.lastStat = stInvalid ∧
            t.mp.slotA = s.mp.slotA ∧ t.mp.slotB = s.mp.slotB)) ∧
        (∀ k : Byte,
          (k.toNat ≤ 1 → k.toNat ≠ slot →
            (s.fwCheck (s.slotImg k.toNat) = none → Runs (.activate q k) s fun t => t.lastStat = stOk ∧ ustat t = 2 ∧
              t.mp.swap = some k.toNat ∧ post t) ∧
            (∀ c, s.fwCheck (s.slotImg k.toNat) = some c → Runs (.activate q k) s fun t => t.lastStat = stOk ∧ ustat t = 5 ∧
              t.mp.swap = none ∧ post t)) ∧
          (1 < k.toNat ∨ k.toNat = slot → Runs (.activate q k) s fun t => t.lastStat = stInvalid ∧ t.mp.swap = s.mp.swap)) ∧
        (∀ v : BitVec 32, Runs (.commit q v) s fun t =>
          if s.fuses.svnmin.toNat ≤ v.toNat ∧ v.toNat ≤ leAt (s.slotImg slot) 0x0C 4 then
            t.lastStat = stOk ∧ t.fuses = { s.fuses with svnmin := v }
          else t.lastStat = stInvalid ∧ t.fuses = s.fuses)) ∧
      (s.holds q 5 0 = false → ∀ (k : Fin 2) (b : Bytes) (v : Byte) (n : BitVec 32),
        ∀ i ∈ [Instr.imageWrite q k b, .activate q v, .commit q n], Runs i s fun t => t.lastStat = stDenied ∧ post t ∧
          t.mp.slotA = s.mp.slotA ∧ t.mp.slotB = s.mp.slotB ∧ t.mp.swap = s.mp.swap ∧ t.fuses = s.fuses) ∧
      (∀ b : Bytes, Runs (.nonce q b) s fun t =>
        if b.length = 48 then t.lastStat = stOk ∧ t.mp.nonce = some b ∧ t.mp.report = none
        else t.lastStat = (if 48 < b.length then stType else stInvalid) ∧ t.mp.nonce = s.mp.nonce ∧ t.mp.report = s.mp.report) ∧
      (s.holds q 2 0 = true → s.odNat 0x6000 6 0 = 0 → ∀ us : Nat, (Runs (.dumpreq q 1 us) s fun t => t.lastStat = stOk ∧
          t.odNat 0x6000 7 0 = 4 ∧ post t) ∧ ∀ v : Byte, v ≠ 1 → Runs (.dumpreq q v us) s fun t => t.lastStat = stInvalid)) ∧
    (∀ (q : Requester) (k : Fin 2) (b n : Bytes) (v w : Byte) (svn : BitVec 32) (us : Nat),
      ∀ i ∈ [Instr.imageWrite q k b, .activate q v, .commit q svn, .nonce q n, .dumpreq q w us],
        (s.reaches q = false ∨ q = .tap → exec i s = .next s) ∧
        (s.reaches q = true → q ≠ .tap →
          (s.fld F.MGT_STAT.SHED [] = 1 ∨ 64 ≤ s.mp.mbox.length → Runs i s fun t => t.lastStat = stBusy ∧ t.mp = s.mp ∧
            t.od = s.od ∧ t.fuses = s.fuses ∧ post t) ∧
          (s.fld F.MGT_STAT.SHED [] = 0 → s.mp.mbox.length < 64 →
            (2 ≤ s.mpst → Runs i s fun t => t.mp = { s.mp with mbox := s.mp.mbox ++ [i] } ∧ t.od = s.od ∧ t.fuses = s.fuses ∧ post t) ∧
            (s.mpst = 0 → q ≠ .i3c → Runs i s fun t => t.lastStat = stNoent ∧ t.mp = s.mp ∧ t.fuses = s.fuses ∧ post t)))) ∧
    (∀ n, s.mp.nonce = some n → Runs .attestationReportReady s fun t => t.mp.nonce = none ∧ t.regs = s.regs ∧
      ∃ r : Bytes, t.mp.report = some r ∧ slice r 0 4 = asciiBytes "AKAT" ∧ leAt r 6 1 = s.pos ∧
        (n.length = 48 → slice r 0x10 48 = n)) ∧
    (s.mp.nonce = none → exec .attestationReportReady s = .next s) ∧
    (s.mp.swap = none → ∀ i ∈ [Instr.firmwareSwap false, .firmwareSwap true, .firmwareRevert], exec i s = .next s) ∧
    (s.mpst ≠ 1 ∨ s.tst ≠ 3 ∨ s.swapFree = false → exec (.firmwareSwap false) s = .next s) ∧
    (s.mpst ≠ 2 → ∀ i ∈ [Instr.firmwareSwap true, .firmwareRevert], exec i s = .next s) ∧
    (∀ k, s.mp.swap = some k →
      (s.mpst = 1 → s.tst = 3 → s.swapFree = true → Runs (.firmwareSwap false) s fun t => t.mpst = 2 ∧ t.odNat 0x7002 5 0 = 3 ∧
        t.mp.staging = [] ∧ post t) ∧
      (s.mpst = 2 → s.mp.mbox = [] →
        (Runs (.firmwareSwap true) s fun t => t.mpst = 1 ∧ t.mp.swap = none ∧ t.fld F.MGT_STAT.SLOT [] = k % 2 ∧
          t.fld F.MGT_STAT.FWVER [] = imgVer (s.slotImg k) % 2 ^ 32 ∧ t.odNat 0x7002 5 0 = 0 ∧ post t) ∧
        Runs .firmwareRevert s fun t => t.mpst = 1 ∧ t.mp.swap = none ∧ t.fld F.MGT_STAT.SLOT [] = slot ∧
          t.odNat 0x7002 5 0 = 4 ∧ post t)) ∧
    (s.mpst = 1 →
      (∀ us : Nat, (Runs (.watchdogExpiry false us) s fun t => t.mpst = 3 ∧ post t ∧
          t.fld F.MGT_CNT.MPRST [] = satAdd 16 (s.fld F.MGT_CNT.MPRST []) 1) ∧
        Runs (.watchdogExpiry true us) s fun t => t.fld F.CLK_RST.CAUSE [] = 4 ∧ t.pt = [] ∧ t.cl = []) ∧
      (∀ ts : List Int, Runs (.telemetrySample (.thermal ts)) s fun t => t.regs = s.regs ∧ post t ∧
        ∀ k < 64, t.odNat 0x4300 (k + 1) 0 = wrapN 16 (listGet 0 ts k)) ∧
      (∀ v : List (Nat × Nat), Runs (.telemetrySample (.eye v)) s fun t => ∀ k < 32,
        t.fld F.LND_MOD.EYE [k / 4, k % 4] = min 4095 (listGet (0, 0) v k).1 ∧
        t.odNat 0x4302 (k + 1) 0 = (listGet (0, 0) v k).1 % 2 ^ 16) ∧
      (∀ v, Runs (.telemetrySample (.rails v)) s fun t => t.regs = s.regs ∧ post t ∧
        ∀ k < 36, t.odNat 0x4301 (k + 1) 0 = (listGet (0, 0) v k).1 % 2 ^ 16 * 2 ^ 16 + (listGet (0, 0) v k).2 % 2 ^ 16) ∧
      (∀ v, Runs (.telemetrySample (.droop v)) s fun t => t.regs = s.regs ∧ post t ∧
        ∀ k < 25, t.odNat 0x4304 (k + 1) 0 = min 255 (listGet 0 v k)) ∧
      (∀ v, Runs (.telemetrySample (.process v)) s fun t => t.regs = s.regs ∧ post t ∧
        ∀ k < 8, t.odNat 0x4303 (k + 1) 0 = listGet 0 v k % 2 ^ 16)) ∧
    (s.mpst ≠ 1 → (∀ x : Telemetry, exec (.telemetrySample x) s = .next s) ∧
      ∀ (third : Bool) (us : Nat), exec (.watchdogExpiry third us) s = .next s) ∧
    (∀ (load : Nat) (duty : List Nat),
      (s.mpst = 1 ∨ (s.mpst = 3 ∧ s.mp.mbox = []) → Runs (.loadWindowEnd load duty) s fun t => t.mpst = 1 ∧
        t.fld F.MGT_STAT.LOAD [] = min load 100 ∧ post t ∧ (85 < load → t.fld F.MGT_STAT.SHED [] = 1) ∧
        (load ≤ 85 → s.fld F.MGT_STAT.SHED [] = 0 → t.fld F.MGT_STAT.SHED [] = 0) ∧
        (load ≤ 85 → s.fld F.MGT_STAT.SHED [] = 1 → if s.mp.cool < 9 then t.fld F.MGT_STAT.SHED [] = 1 ∧ t.mp.cool = s.mp.cool + 1
          else t.fld F.MGT_STAT.SHED [] = 0)) ∧
      (s.mpst ≠ 1 → s.mpst ≠ 3 → exec (.loadWindowEnd load duty) s = .next s)) ∧
    (∀ (c : Fin 4) (us : Nat), (c.val = 0 ∨ s.mpst = 4 → exec (.fatalError c us) s = .next s) ∧
      (c.val ≠ 0 → s.mpst ≠ 4 → Runs (.fatalError c us) s fun t =>
        if c.val = 3 then t.fld F.CLK_RST.CAUSE [] = 4 ∧ t.pt = [] ∧ t.cl = []
        else t.mpst = 4 ∧ ∀ p < 16, (t.part p).live = false)) ∧
    (s.coreOn = true →
      let base := s.odNat 0x6000 1 0
      let widx := if s.mp.plNew = true then 0 else s.odNat 0x6000 3 0
      (s.mpst ≠ 1 ∨ s.mp.rlNew = 0 ∨ s.mp.plN ≠ 0 → exec .persistentLogCopy s = .next s) ∧
      (s.mpst = 1 → 0 < s.mp.rlNew → s.mp.rlNew ≤ s.ringLog.length → s.mp.plN = 0 →
        (∀ a < 64 + 32 * s.logRecs, ∃ l, s.target (base + a) = some (l, 1) ∧ s.cxlUp l = true) → Runs .persistentLogCopy s fun t =>
          t.mp.plN = min s.mp.rlNew 256 ∧ t.mp.plOut ≠ [] ∧ t.mp.rlNew = s.mp.rlNew ∧ t.ringLog = s.ringLog ∧
          t.od = s.od ∧ post t) ∧
      ∀ (l : Fin 8) (x : BitVec 16), s.cxlUp l.val = true → s.mp.plOut = [x.toNat] → s.tagged x.toNat true = none →
        x.toNat ∉ s.evOut →
        (Runs (.cxlNdrCmp l x false) s fun t => t.mp.plN = 0 ∧ t.mp.plOut = [] ∧ t.mp.plNew = false ∧
          t.odNat 0x6000 3 0 = (widx + s.mp.plN) % 2 ^ 64 ∧ post t) ∧
        (s.tagged x.toNat false = none → Runs (.cxlNdrCmp l x true) s fun t => t.mp = { s.mp with plN := 0, plOver := 0, plOut := [] } ∧
          t.od = s.od ∧ post t))

/-- A detected fault stops its partition, the restore brings the leg back, and each recovery command or expiry acts by
its rule. For a clocked die with fault handling enabled: a fault of a live partition not in recovery, reported by any
path but a store's, is recorded with its kind in FLT_LAST and FLT_PREC, and the partition is to stop 12 ccy ahead;
found after the next LEG it is to end the voyage there with FCODE 0x43; a store error of a partition that runs nothing
is counted. The end of a restore returns the dirty granules and waits for firmware. REPLAY resumes and is counted, or
ends at its limit; REMAP takes a spare; FENCE fences for good; END ends; outside their conditions RES says so. At RWD
the default action follows, where no tally but those of the die has a net change; a missing join notice ends every
member. -/
def Obligations.RecoveryContainsRestoresAndEnds : Prop :=
  ∀ s : State, s.coreOn = true →
    let prec := fun (t : State) (p : Nat) => t.fld F.FLT_PREC.STATE [p]
    let ends := fun (t : State) (p code : Nat) => (t.part p).live = false ∧ ∃ e, (t.part p).fin = some e ∧ e.status = 0x13 ∧
      e.fcode = code
    (∀ (r : FaultReport) (p c kind : Nat), s.bit F.FLT_CTL.EN [] = true → s.reportPart r = p → p < 16 → c < 2048 →
      (s.part p).live = true → prec s p = 0 → (s.part p).recov = none → (∀ d, reportCluster r = some d → d < 1250 ∧ s.inPart d = true) →
      ((∃ x y z, r = .lane c x y z ∧ kind = 1) ∨ (∃ x y, r = .fma c x y ∧ kind = 2) ∨ (∃ x, r = .post c x ∧ kind = 3) ∨
        (∃ x, r = .table c x ∧ kind = 8) ∨ (r = .sailTable c ∧ kind = 4) ∨ (r = .router c ∧ kind = 5) ∨
        (∃ x, r = .link c x ∧ kind = 5) ∨ (∃ x, r = .tally x ∧ kind = 7 ∧ c = ((s.part p).cls.head?).getD 0)) →
      let found := fun (t : State) => prec t p = 1 ∧ t.fld F.FLT_PREC.KIND [p] = kind ∧ t.fld F.FLT_PREC.CLIDX [p] = c ∧
        t.fld F.FLT_LAST_0.KIND [] = kind ∧ t.fld F.FLT_LAST_0.PART [] = p ∧ t.fld F.FLT_LAST_0.CLIDX [] = c ∧ (t.part p).live = true
      (Runs (.faultDetected r false) s fun t => found t ∧
        ∃ x, (t.part p).recov = some x ∧ x.ccy = (s.part p).pccy + 12 ∧ x.fin = none) ∧
      Runs (.faultDetected r true) s fun t => found t ∧ ∃ x e, (t.part p).recov = some x ∧ x.ccy = (s.part p).pccy + 12 ∧
        x.fin = some e ∧ e.status = 0x13 ∧ e.fcode = 0x43) ∧
    (∀ (c : Nat) (st : Fin 5) (line : Nat), c < 1250 → s.inPart c = true → (s.part (s.partOf c)).live = false →
      Runs (.faultDetected (.store c st line) false) s fun t => t.pt = s.pt ∧
        t.fld F.CLU_SERR.UE [c, st.val] = satAdd F.CLU_SERR.UE.w (s.fld F.CLU_SERR.UE [c, st.val]) 1) ∧
    (∀ p : Fin 16, prec s p.val = 2 → s.fld F.FLT_PREC.KIND [p.val] ≠ 0 → (s.part p.val).rems = [] →
      (∀ c ∈ (s.part p.val).cls, c < 1250 ∧ (s.clu c).ecc = []) → Runs (.legRestoreComplete p) s fun t =>
        prec t p.val = (if (s.part p.val).live = true then 3 else 2) ∧
        ∀ c ∈ (s.part p.val).cls, s.bit F.CLU_STSTAT.RST [c] = true → (t.clu c).dirty = [] ∧ t.bit F.CLU_STSTAT.RST [c] = false ∧
          ∀ g ∈ (s.clu c).dirty, (t.clu c).p.bytes (64 * g) 64 = (s.clu c).sh.bytes (64 * g) 64) ∧
    (∀ p : Fin 16, prec s p.val = 2 → s.fld F.FLT_PREC.KIND [p.val] = 0 → (s.part p.val).live = true → s.joinMet p.val = true →
      (∀ c ∈ (s.part p.val).cls, c < 1250 ∧ (s.clu c).ecc = []) → s.members p.val = [] →
        Runs (.legRestoreComplete p) s fun t => prec t p.val = 0 ∧ (t.part p.val).rems = []) ∧
    (∀ p : Fin 16, prec s p.val ≠ 2 → exec (.legRestoreComplete p) s = .next s) ∧
    (∀ (q : Requester) (p : Fin 16) (c : BitVec 11) (k : Fin 64), isFw q = false →
      ∀ i ∈ [Instr.rcmdReplay q p, .rcmdRemap q p c k, .rcmdFence q p c, .rcmdEnd q p], Runs i s (Denied s)) ∧
    (∀ (q : Requester) (p : Fin 16), isFw q = true →
      let res := fun (t : State) => t.fld F.FLT_RCMD.RES []
      let cls := (s.part p.val).cls
      let n := s.fld F.FLT_PREC.NREP [p.val]
      let lim := max 1 (s.fld F.FLT_CTL.RLIM [])
      (∀ (c : BitVec 11) (k : Fin 64), ∀ i ∈ [Instr.rcmdReplay q p, .rcmdRemap q p c k, .rcmdFence q p c, .rcmdEnd q p],
        prec s p.val = 0 → Runs i s fun t => res t = 1 ∧ t.cl = s.cl ∧ t.pt = s.pt) ∧
      ((s.front p.val).loading = [] → prec s p.val = 3 →
        (n < lim → s.members p.val = [] → s.overdrawnStop p.val = true → Runs (.rcmdReplay q p) s fun t => res t = 0 ∧
          prec t p.val = 4) ∧
        (n < lim → s.members p.val = [] → s.overdrawnStop p.val = false → Runs (.rcmdReplay q p) s fun t => res t = 0 ∧ prec t p.val = 0 ∧
          t.fld F.FLT_PREC.NREP [p.val] = n + 1 ∧ (t.part p.val).rems = [] ∧ (t.part p.val).live = (s.part p.val).live ∧
          t.fld F.FLT_CNT_1.REPLAY [] = satAdd 16 (s.fld F.FLT_CNT_1.REPLAY []) 1) ∧
        (lim ≤ n → (s.part p.val).live = true → Runs (.rcmdReplay q p) s fun t => res t = 0 ∧ ends t p.val 0x44)) ∧
      (prec s p.val ≠ 0 → ((s.front p.val).loading ≠ [] ∨ prec s p.val ≠ 3) → Runs (.rcmdReplay q p) s fun t => res t = 3 ∧
        t.pt = s.pt) ∧
      (∀ (c : BitVec 11) (k : Fin 64), prec s p.val ≠ 0 → c.toNat ∈ cls → c.toNat < 1250 →
        (∀ x, s.spareSite c.toNat = some x → Runs (.rcmdRemap q p c k) s fun t => res t = 0 ∧ t.siteOf c.toNat k.val = x ∧
          t.fld F.CLU_CSITE.NSPARE [c.toNat] = s.fld F.CLU_CSITE.NSPARE [c.toNat] - 1) ∧
        (s.spareSite c.toNat = none → Runs (.rcmdRemap q p c k) s fun t => res t = 2 ∧ t.pt = s.pt ∧ t.fmap = s.fmap) ∧
        Runs (.rcmdFence q p c) s fun t => res t = 0 ∧ t.fld F.CLU_CSITE.PERM [c.toNat] = 1 ∧
          t.fld F.CLU_CSITE.FEN [c.toNat] = 1 ∧ (t.part p.val).rems.head? = some (.endv 0x40)) ∧
      (∀ (c : BitVec 11) (k : Fin 64), prec s p.val ≠ 0 → c.toNat ∉ cls →
        ∀ i ∈ [Instr.rcmdRemap q p c k, .rcmdFence q p c], Runs i s fun t => res t = 3 ∧ t.cl = s.cl ∧ t.pt = s.pt) ∧
      (prec s p.val ≠ 0 → (s.part p.val).live = true → Runs (.rcmdEnd q p) s fun t => res t = 0 ∧
        ends t p.val (s.endCode p.val))) ∧
    (∀ p : Fin 16,
      let wdog := fun (t : State) => t.fld F.FLT_CNT_1.WDOG [] = satAdd 16 (s.fld F.FLT_CNT_1.WDOG []) 1
      (prec s p.val ≠ 3 → exec (.rwdExpiry p) s = .next s) ∧
      (prec s p.val = 3 → s.selfRemedied p.val = false → (s.part p.val).live = true →
        (∀ x ∈ s.tnet, x.1 < 16384) → Runs (.rwdExpiry p) s fun t => wdog t ∧ ends t p.val 0x47) ∧
      (prec s p.val = 3 → s.selfRemedied p.val = true → (s.part p.val).rems.all (· == .none) = true → s.members p.val = [] →
        s.overdrawnStop p.val = false →
        s.fld F.FLT_PREC.NREP [p.val] < max 1 (s.fld F.FLT_CTL.RLIM []) → Runs (.rwdExpiry p) s fun t => wdog t ∧
          prec t p.val = 0 ∧ (t.part p.val).live = (s.part p.val).live) ∧
      (prec s p.val ≠ 0 → s.members p.val ≠ [] → s.joinMet p.val = false → (s.part p.val).live = true →
        Runs (.joinTimeout p) s fun t => ends t p.val 0x46) ∧
      (prec s p.val = 0 ∨ s.members p.val = [] ∨ s.joinMet p.val = true → exec (.joinTimeout p) s = .next s))
end

