-- ==== Sys2Proof/Laws/Addr.lean ====
section
/-! SUPPORT. The address of each register as a sum, from its place (R11 and the register maps of the spec). -/

namespace Sys2Proof.Machine

theorem regAddr_CLU_CFLAG (c i : Nat) : regAddr .CLU_CFLAG [c, i] = 0x02000000 + c * 0x4000 + (0x1000 + (0 + 0x40 * i)) := rfl
theorem regAddr_CLU_CFSNAP (c i : Nat) : regAddr .CLU_CFSNAP [c, i] = 0x02000000 + c * 0x4000 + (0x1008 + (0 + 0x40 * i)) := rfl
theorem regAddr_CLU_LMAP (c i : Nat) : regAddr .CLU_LMAP [c, i] = 0x02000000 + c * 0x4000 + (0x1010 + (0 + 0x40 * i)) := rfl
theorem regAddr_CLU_CSTAT (c i : Nat) : regAddr .CLU_CSTAT [c, i] = 0x02000000 + c * 0x4000 + (0x1018 + (0 + 0x40 * i)) := rfl
theorem regAddr_CLU_WCFG (c i : Nat) : regAddr .CLU_WCFG [c, i] = 0x02000000 + c * 0x4000 + (0x3000 + (0 + 0x40 * i)) := rfl
theorem regAddr_CLU_WBOX (c i : Nat) : regAddr .CLU_WBOX [c, i] = 0x02000000 + c * 0x4000 + (0x3008 + (0 + 0x40 * i)) := rfl
theorem regAddr_CLU_WDIM0 (c i : Nat) : regAddr .CLU_WDIM0 [c, i] = 0x02000000 + c * 0x4000 + (0x3010 + (0 + 0x40 * i)) := rfl
theorem regAddr_CLU_WDIM1 (c i : Nat) : regAddr .CLU_WDIM1 [c, i] = 0x02000000 + c * 0x4000 + (0x3018 + (0 + 0x40 * i)) := rfl
theorem regAddr_CLU_WDIM2 (c i : Nat) : regAddr .CLU_WDIM2 [c, i] = 0x02000000 + c * 0x4000 + (0x3020 + (0 + 0x40 * i)) := rfl
theorem regAddr_CLU_WDIM3 (c i : Nat) : regAddr .CLU_WDIM3 [c, i] = 0x02000000 + c * 0x4000 + (0x3028 + (0 + 0x40 * i)) := rfl
theorem regAddr_CLU_WDIM4 (c i : Nat) : regAddr .CLU_WDIM4 [c, i] = 0x02000000 + c * 0x4000 + (0x3030 + (0 + 0x40 * i)) := rfl
theorem regAddr_CLU_WPOS (c i : Nat) : regAddr .CLU_WPOS [c, i] = 0x02000000 + c * 0x4000 + (0x3038 + (0 + 0x40 * i)) := rfl
theorem regAddr_CLU_BXA (c i : Nat) : regAddr .CLU_BXA [c, i] = 0x02000000 + c * 0x4000 + (0x2000 + (0 + 0x40 * i)) := rfl
theorem regAddr_CLU_BWA (c i : Nat) : regAddr .CLU_BWA [c, i] = 0x02000000 + c * 0x4000 + (0x2008 + (0 + 0x40 * i)) := rfl
theorem regAddr_CLU_BDA (c i : Nat) : regAddr .CLU_BDA [c, i] = 0x02000000 + c * 0x4000 + (0x2010 + (0 + 0x40 * i)) := rfl
theorem regAddr_CLU_BXB (c i : Nat) : regAddr .CLU_BXB [c, i] = 0x02000000 + c * 0x4000 + (0x2018 + (0 + 0x40 * i)) := rfl
theorem regAddr_CLU_BWB (c i : Nat) : regAddr .CLU_BWB [c, i] = 0x02000000 + c * 0x4000 + (0x2020 + (0 + 0x40 * i)) := rfl
theorem regAddr_CLU_BDB (c i : Nat) : regAddr .CLU_BDB [c, i] = 0x02000000 + c * 0x4000 + (0x2028 + (0 + 0x40 * i)) := rfl
theorem regAddr_CLU_BPS (c i : Nat) : regAddr .CLU_BPS [c, i] = 0x02000000 + c * 0x4000 + (0x2030 + (0 + 0x40 * i)) := rfl
theorem regAddr_CLU_BPD (c i : Nat) : regAddr .CLU_BPD [c, i] = 0x02000000 + c * 0x4000 + (0x2038 + (0 + 0x40 * i)) := rfl
theorem regAddr_CLU_PSTAT (c : Nat) : regAddr .CLU_PSTAT [c] = 0x02000000 + c * 0x4000 + (0x3800 + 0) := rfl
theorem regAddr_CLU_PSCYC (c : Nat) : regAddr .CLU_PSCYC [c] = 0x02000000 + c * 0x4000 + (0x3808 + 0) := rfl
theorem regAddr_CLU_PSEED (c : Nat) : regAddr .CLU_PSEED [c] = 0x02000000 + c * 0x4000 + (0x3810 + 0) := rfl
theorem regAddr_CLU_PFAULT (c : Nat) : regAddr .CLU_PFAULT [c] = 0x02000000 + c * 0x4000 + (0x3818 + 0) := rfl
theorem regAddr_CLU_PLEGMAX (c : Nat) : regAddr .CLU_PLEGMAX [c] = 0x02000000 + c * 0x4000 + (0x3820 + 0) := rfl
theorem regAddr_CLU_PMASK (c i : Nat) : regAddr .CLU_PMASK [c, i] = 0x02000000 + c * 0x4000 + (0x3840 + (0 + 0x8 * i)) := rfl
theorem regAddr_CLU_PLOOP (c i : Nat) : regAddr .CLU_PLOOP [c, i] = 0x02000000 + c * 0x4000 + (0x3880 + (0 + 0x8 * i)) := rfl
theorem regAddr_CLU_PTBIND (c i : Nat) : regAddr .CLU_PTBIND [c, i] = 0x02000000 + c * 0x4000 + (0x38C0 + (0 + 0x8 * i)) := rfl
theorem regAddr_CLU_BERTH (c i : Nat) : regAddr .CLU_BERTH [c, i] = 0x02000000 + c * 0x4000 + (0x0 + (0 + 0x10 * i)) := rfl
theorem regAddr_CLU_BCNT (c i : Nat) : regAddr .CLU_BCNT [c, i] = 0x02000000 + c * 0x4000 + (0x8 + (0 + 0x10 * i)) := rfl
theorem regAddr_CLU_GWCFG (c i : Nat) : regAddr .CLU_GWCFG [c, i] = 0x02000000 + c * 0x4000 + (0x800 + (0 + 0x20 * i)) := rfl
theorem regAddr_CLU_GWCRD (c i : Nat) : regAddr .CLU_GWCRD [c, i] = 0x02000000 + c * 0x4000 + (0x808 + (0 + 0x20 * i)) := rfl
theorem regAddr_CLU_GWADD (c i : Nat) : regAddr .CLU_GWADD [c, i] = 0x02000000 + c * 0x4000 + (0x810 + (0 + 0x20 * i)) := rfl
theorem regAddr_CLU_STSTAT (c : Nat) : regAddr .CLU_STSTAT [c] = 0x02000000 + c * 0x4000 + (0xC00 + 0) := rfl
theorem regAddr_CLU_PSHDW (c : Nat) : regAddr .CLU_PSHDW [c] = 0x02000000 + c * 0x4000 + (0xC08 + 0) := rfl
theorem regAddr_CLU_LLOCK (c i : Nat) : regAddr .CLU_LLOCK [c, i] = 0x02000000 + c * 0x4000 + (0xC10 + (0 + 0x8 * i)) := rfl
theorem regAddr_CLU_SERR (c i : Nat) : regAddr .CLU_SERR [c, i] = 0x02000000 + c * 0x4000 + (0xC20 + (0 + 0x8 * i)) := rfl
theorem regAddr_CLU_SCRUB (c : Nat) : regAddr .CLU_SCRUB [c] = 0x02000000 + c * 0x4000 + (0xC48 + 0) := rfl
theorem regAddr_CLU_GWDROPA (c : Nat) : regAddr .CLU_GWDROPA [c] = 0x02000000 + c * 0x4000 + (0xC50 + 0) := rfl
theorem regAddr_CLU_GWDROPB (c : Nat) : regAddr .CLU_GWDROPB [c] = 0x02000000 + c * 0x4000 + (0xC58 + 0) := rfl
theorem regAddr_CHN_RCFG (c : Nat) : regAddr .CHN_RCFG [c] = 0x02000000 + c * 0x4000 + (0xD00 + 0) := rfl
theorem regAddr_CHN_SPTR (c : Nat) : regAddr .CHN_SPTR [c] = 0x02000000 + c * 0x4000 + (0xD08 + 0) := rfl
theorem regAddr_CHN_SAIL_IDX (c : Nat) : regAddr .CHN_SAIL_IDX [c] = 0x02000000 + c * 0x4000 + (0xD10 + 0) := rfl
theorem regAddr_CHN_SAIL_DATA_0 (c : Nat) : regAddr .CHN_SAIL_DATA_0 [c] = 0x02000000 + c * 0x4000 + (0xD18 + 0) := rfl
theorem regAddr_CHN_SAIL_DATA_1 (c : Nat) : regAddr .CHN_SAIL_DATA_1 [c] = 0x02000000 + c * 0x4000 + (0xD20 + 0) := rfl
theorem regAddr_CHN_SEG (c i : Nat) : regAddr .CHN_SEG [c, i] = 0x02000000 + c * 0x4000 + (0xD40 + (0 + 0x8 * i)) := rfl
theorem regAddr_CHN_HOLDT (c : Nat) : regAddr .CHN_HOLDT [c] = 0x02000000 + c * 0x4000 + (0xD80 + 0) := rfl
theorem regAddr_CHN_HOLDC_0 (c : Nat) : regAddr .CHN_HOLDC_0 [c] = 0x02000000 + c * 0x4000 + (0xD88 + 0) := rfl
theorem regAddr_CHN_HOLDC_1 (c : Nat) : regAddr .CHN_HOLDC_1 [c] = 0x02000000 + c * 0x4000 + (0xD90 + 0) := rfl
theorem regAddr_CHN_HOLDC_2 (c : Nat) : regAddr .CHN_HOLDC_2 [c] = 0x02000000 + c * 0x4000 + (0xD98 + 0) := rfl
theorem regAddr_CHN_LERR (c : Nat) : regAddr .CHN_LERR [c] = 0x02000000 + c * 0x4000 + (0xDA0 + 0) := rfl
theorem regAddr_CHN_CERR (c : Nat) : regAddr .CHN_CERR [c] = 0x02000000 + c * 0x4000 + (0xDA8 + 0) := rfl
theorem regAddr_CHN_FAULT (c : Nat) : regAddr .CHN_FAULT [c] = 0x02000000 + c * 0x4000 + (0xDB0 + 0) := rfl
theorem regAddr_CHN_GWCFG (c i : Nat) : regAddr .CHN_GWCFG [c, i] = 0x02000000 + c * 0x4000 + (0xDC0 + (0 + 0x10 * i)) := rfl
theorem regAddr_CHN_GWPTR (c i : Nat) : regAddr .CHN_GWPTR [c, i] = 0x02000000 + c * 0x4000 + (0xDC8 + (0 + 0x10 * i)) := rfl
theorem regAddr_CLU_CMAP (c i : Nat) : regAddr .CLU_CMAP [c, i] = 0x02000000 + c * 0x4000 + (0x3900 + (0 + 0x8 * i)) := rfl
theorem regAddr_CLU_CBAD_0 (c : Nat) : regAddr .CLU_CBAD_0 [c] = 0x02000000 + c * 0x4000 + (0x3940 + 0) := rfl
theorem regAddr_CLU_CSITE (c : Nat) : regAddr .CLU_CSITE [c] = 0x02000000 + c * 0x4000 + (0x3948 + 0) := rfl
theorem regAddr_TDE_TCTL : regAddr .TDE_TCTL [] = 0x01400000 + 0 := rfl
theorem regAddr_TDE_TSTAT : regAddr .TDE_TSTAT [] = 0x01400008 + 0 := rfl
theorem regAddr_TDE_TNUM : regAddr .TDE_TNUM [] = 0x01400010 + 0 := rfl
theorem regAddr_TDE_RAMP : regAddr .TDE_RAMP [] = 0x01400018 + 0 := rfl
theorem regAddr_TDE_RCERR : regAddr .TDE_RCERR [] = 0x01400020 + 0 := rfl
theorem regAddr_TDE_RCLAST : regAddr .TDE_RCLAST [] = 0x01400028 + 0 := rfl
theorem regAddr_TDE_PRANGE (i : Nat) : regAddr .TDE_PRANGE [i] = 0x01400080 + (0 + 0x8 * i) := rfl
theorem regAddr_TDE_PTIDE (i : Nat) : regAddr .TDE_PTIDE [i] = 0x01400100 + (0 + 0x8 * i) := rfl
theorem regAddr_TDE_TAL (i : Nat) : regAddr .TDE_TAL [i] = 0x01500000 + (0 + 0x20 * i) := rfl
theorem regAddr_TDE_TCNT (i : Nat) : regAddr .TDE_TCNT [i] = 0x01500008 + (0 + 0x20 * i) := rfl
theorem regAddr_TDE_TLEG (i : Nat) : regAddr .TDE_TLEG [i] = 0x01500010 + (0 + 0x20 * i) := rfl
theorem regAddr_TDE_TCFG (i : Nat) : regAddr .TDE_TCFG [i] = 0x01500018 + (0 + 0x20 * i) := rfl
theorem regAddr_FE_CTL : regAddr .FE_CTL [] = 0x00200000 + 0 := rfl
theorem regAddr_FE_STAT : regAddr .FE_STAT [] = 0x00200008 + 0 := rfl
theorem regAddr_FE_COH_BASE : regAddr .FE_COH_BASE [] = 0x00200010 + 0 := rfl
theorem regAddr_FE_STAB_BASE : regAddr .FE_STAB_BASE [] = 0x00200018 + 0 := rfl
theorem regAddr_FE_STAB_STAT : regAddr .FE_STAB_STAT [] = 0x00200020 + 0 := rfl
theorem regAddr_FE_SCMD : regAddr .FE_SCMD [] = 0x00200028 + 0 := rfl
theorem regAddr_FE_EVBASE : regAddr .FE_EVBASE [] = 0x00200050 + 0 := rfl
theorem regAddr_FE_EVSTAT : regAddr .FE_EVSTAT [] = 0x00200058 + 0 := rfl
theorem regAddr_FE_ERRCNT : regAddr .FE_ERRCNT [] = 0x00200060 + 0 := rfl
theorem regAddr_FE_SDATA (i : Nat) : regAddr .FE_SDATA [i] = 0x00200030 + (0 + 0x8 * i) := rfl
theorem regAddr_FE_RING_BASE (i : Nat) : regAddr .FE_RING_BASE [i] = 0x00201000 + (0 + 0x20 * i) := rfl
theorem regAddr_FE_RING_CFG (i : Nat) : regAddr .FE_RING_CFG [i] = 0x00201008 + (0 + 0x20 * i) := rfl
theorem regAddr_FE_RING_CPL (i : Nat) : regAddr .FE_RING_CPL [i] = 0x00201010 + (0 + 0x20 * i) := rfl
theorem regAddr_FE_RING_IDX (i : Nat) : regAddr .FE_RING_IDX [i] = 0x00201018 + (0 + 0x20 * i) := rfl
theorem regAddr_FE_RING_STL (i : Nat) : regAddr .FE_RING_STL [i] = 0x00201800 + (0 + 0x8 * i) := rfl
theorem regAddr_FE_PCFG (i : Nat) : regAddr .FE_PCFG [i] = 0x00202000 + (0 + 0x20 * i) := rfl
theorem regAddr_FE_PSTAT (i : Nat) : regAddr .FE_PSTAT [i] = 0x00202008 + (0 + 0x20 * i) := rfl
theorem regAddr_FE_PCMD (i : Nat) : regAddr .FE_PCMD [i] = 0x00202010 + (0 + 0x20 * i) := rfl
theorem regAddr_FRY_CTL : regAddr .FRY_CTL [] = 0x00400000 + 0 := rfl
theorem regAddr_FRY_SCALE : regAddr .FRY_SCALE [] = 0x00400008 + 0 := rfl
theorem regAddr_FRY_FQBASE : regAddr .FRY_FQBASE [] = 0x00400010 + 0 := rfl
theorem regAddr_FRY_FQIDX : regAddr .FRY_FQIDX [] = 0x00400018 + 0 := rfl
theorem regAddr_FRY_RESCMD : regAddr .FRY_RESCMD [] = 0x00400020 + 0 := rfl
theorem regAddr_FRY_CNT : regAddr .FRY_CNT [] = 0x00400028 + 0 := rfl
theorem regAddr_FRY_ESTAT (i : Nat) : regAddr .FRY_ESTAT [i] = 0x00400100 + (0 + 0x10 * i) := rfl
theorem regAddr_FRY_ECMD (i : Nat) : regAddr .FRY_ECMD [i] = 0x00400108 + (0 + 0x10 * i) := rfl
theorem regAddr_FRY_PMASK (i : Nat) : regAddr .FRY_PMASK [i] = 0x00401000 + (0 + 0x20 * i) := rfl
theorem regAddr_FRY_PRATE (i : Nat) : regAddr .FRY_PRATE [i] = 0x00401008 + (0 + 0x20 * i) := rfl
theorem regAddr_FRY_PDRAIN (i : Nat) : regAddr .FRY_PDRAIN [i] = 0x00401010 + (0 + 0x20 * i) := rfl
theorem regAddr_CHT_CTL : regAddr .CHT_CTL [] = 0x00600000 + 0 := rfl
theorem regAddr_CHT_INV : regAddr .CHT_INV [] = 0x00600008 + 0 := rfl
theorem regAddr_CHT_INVLEN : regAddr .CHT_INVLEN [] = 0x00600010 + 0 := rfl
theorem regAddr_CHT_STAT : regAddr .CHT_STAT [] = 0x00600018 + 0 := rfl
theorem regAddr_CHT_FCNT : regAddr .CHT_FCNT [] = 0x00600020 + 0 := rfl
theorem regAddr_CHT_ROOT (i : Nat) : regAddr .CHT_ROOT [i] = 0x00600100 + (0 + 0x10 * i) := rfl
theorem regAddr_CHT_SPOOL (i : Nat) : regAddr .CHT_SPOOL [i] = 0x00600108 + (0 + 0x10 * i) := rfl
theorem regAddr_CHT_PMAP (i : Nat) : regAddr .CHT_PMAP [i] = 0x00600200 + (0 + 0x8 * i) := rfl
theorem regAddr_LND_CTL (i : Nat) : regAddr .LND_CTL [i] = 0x00800000 + (0 + 0x10000 * i) := rfl
theorem regAddr_LND_STAT (i : Nat) : regAddr .LND_STAT [i] = 0x00800008 + (0 + 0x10000 * i) := rfl
theorem regAddr_LND_THR (i : Nat) : regAddr .LND_THR [i] = 0x00800010 + (0 + 0x10000 * i) := rfl
theorem regAddr_LND_CNT (i : Nat) : regAddr .LND_CNT [i] = 0x00800018 + (0 + 0x10000 * i) := rfl
theorem regAddr_LND_RTCMD (i : Nat) : regAddr .LND_RTCMD [i] = 0x00800020 + (0 + 0x10000 * i) := rfl
theorem regAddr_LND_CAPP (i j : Nat) : regAddr .LND_CAPP [i, j] = 0x00800040 + ((0 + 0x10000 * i) + 0x8 * j) := rfl
theorem regAddr_LND_CAPL (i j : Nat) : regAddr .LND_CAPL [i, j] = 0x00800060 + ((0 + 0x10000 * i) + 0x8 * j) := rfl
theorem regAddr_LND_MOD (i j : Nat) : regAddr .LND_MOD [i, j] = 0x00800080 + ((0 + 0x10000 * i) + 0x10 * j) := rfl
theorem regAddr_LND_FAIL (i j : Nat) : regAddr .LND_FAIL [i, j] = 0x00800088 + ((0 + 0x10000 * i) + 0x10 * j) := rfl
theorem regAddr_LND_FLCFG (i j : Nat) : regAddr .LND_FLCFG [i, j] = 0x00800100 + ((0 + 0x10000 * i) + 0x8 * j) := rfl
theorem regAddr_LND_LERR (i j : Nat) : regAddr .LND_LERR [i, j] = 0x00800200 + ((0 + 0x10000 * i) + 0x8 * j) := rfl
theorem regAddr_LND_ROUTE (i : Nat) : regAddr .LND_ROUTE [i] = 0x00880000 + (0 + 0x8 * i) := rfl
theorem regAddr_PWR_CTL : regAddr .PWR_CTL [] = 0x01000000 + 0 := rfl
theorem regAddr_PWR_STAT : regAddr .PWR_STAT [] = 0x01000008 + 0 := rfl
theorem regAddr_PWR_DPWR : regAddr .PWR_DPWR [] = 0x01000010 + 0 := rfl
theorem regAddr_PWR_GRANT : regAddr .PWR_GRANT [] = 0x01000018 + 0 := rfl
theorem regAddr_PWR_THCFG : regAddr .PWR_THCFG [] = 0x01000020 + 0 := rfl
theorem regAddr_PWR_TSTAT : regAddr .PWR_TSTAT [] = 0x01000028 + 0 := rfl
theorem regAddr_PWR_DIDT : regAddr .PWR_DIDT [] = 0x01000030 + 0 := rfl
theorem regAddr_PWR_CNT : regAddr .PWR_CNT [] = 0x01000038 + 0 := rfl
theorem regAddr_PWR_DENERGY : regAddr .PWR_DENERGY [] = 0x01000040 + 0 := rfl
theorem regAddr_PWR_OENERGY : regAddr .PWR_OENERGY [] = 0x01000048 + 0 := rfl
theorem regAddr_PWR_TSENS (i : Nat) : regAddr .PWR_TSENS [i] = 0x01000100 + (0 + 0x8 * i) := rfl
theorem regAddr_PWR_RAIL_LIMIT (i : Nat) : regAddr .PWR_RAIL_LIMIT [i] = 0x01000400 + (0 + 0x10 * i) := rfl
theorem regAddr_PWR_RAIL_STAT (i : Nat) : regAddr .PWR_RAIL_STAT [i] = 0x01000408 + (0 + 0x10 * i) := rfl
theorem regAddr_PWR_PCFG (i : Nat) : regAddr .PWR_PCFG [i] = 0x01000800 + (0 + 0x20 * i) := rfl
theorem regAddr_PWR_PBUB (i : Nat) : regAddr .PWR_PBUB [i] = 0x01000808 + (0 + 0x20 * i) := rfl
theorem regAddr_PWR_PENERGY (i : Nat) : regAddr .PWR_PENERGY [i] = 0x01000810 + (0 + 0x20 * i) := rfl
theorem regAddr_PWR_RENERGY (i : Nat) : regAddr .PWR_RENERGY [i] = 0x01000A00 + (0 + 0x8 * i) := rfl
theorem regAddr_PWR_DROOP (i : Nat) : regAddr .PWR_DROOP [i] = 0x01000C00 + (0 + 0x8 * i) := rfl
theorem regAddr_CLK_REF : regAddr .CLK_REF [] = 0x01200000 + 0 := rfl
theorem regAddr_CLK_CCLK : regAddr .CLK_CCLK [] = 0x01200008 + 0 := rfl
theorem regAddr_CLK_PLL : regAddr .CLK_PLL [] = 0x01200010 + 0 := rfl
theorem regAddr_CLK_HELM_0 : regAddr .CLK_HELM_0 [] = 0x01200018 + 0 := rfl
theorem regAddr_CLK_HELM_1 : regAddr .CLK_HELM_1 [] = 0x01200020 + 0 := rfl
theorem regAddr_CLK_RST : regAddr .CLK_RST [] = 0x01200028 + 0 := rfl
theorem regAddr_FLT_CTL : regAddr .FLT_CTL [] = 0x01800000 + 0 := rfl
theorem regAddr_FLT_RCMD : regAddr .FLT_RCMD [] = 0x01800008 + 0 := rfl
theorem regAddr_FLT_LAST_0 : regAddr .FLT_LAST_0 [] = 0x01800010 + 0 := rfl
theorem regAddr_FLT_LAST_1 : regAddr .FLT_LAST_1 [] = 0x01800018 + 0 := rfl
theorem regAddr_FLT_CNT_0 : regAddr .FLT_CNT_0 [] = 0x01800020 + 0 := rfl
theorem regAddr_FLT_CNT_1 : regAddr .FLT_CNT_1 [] = 0x01800028 + 0 := rfl
theorem regAddr_FLT_PREC (i : Nat) : regAddr .FLT_PREC [i] = 0x01800100 + (0 + 0x8 * i) := rfl
theorem regAddr_MGT_STAT : regAddr .MGT_STAT [] = 0x00100000 + 0 := rfl
theorem regAddr_MGT_CNT : regAddr .MGT_CNT [] = 0x00100008 + 0 := rfl
theorem regAddr_MGT_MBOX : regAddr .MGT_MBOX [] = 0x00100010 + 0 := rfl
theorem regAddr_ID_IDENT : regAddr .ID_IDENT [] = 0x00000000 + 0 := rfl
theorem regAddr_ID_SERIAL : regAddr .ID_SERIAL [] = 0x00000008 + 0 := rfl
theorem regAddr_ID_STRAP : regAddr .ID_STRAP [] = 0x00000010 + 0 := rfl
theorem regAddr_ID_VER : regAddr .ID_VER [] = 0x00000018 + 0 := rfl
theorem regAddr_ID_SEC : regAddr .ID_SEC [] = 0x00000020 + 0 := rfl
theorem regAddr_DBG_CTL : regAddr .DBG_CTL [] = 0x03C00000 + 0 := rfl
theorem regAddr_DBG_TRCFG : regAddr .DBG_TRCFG [] = 0x03C00008 + 0 := rfl
theorem regAddr_DBG_TRSTAT : regAddr .DBG_TRSTAT [] = 0x03C00010 + 0 := rfl
theorem regAddr_DBG_CAP : regAddr .DBG_CAP [] = 0x03C00018 + 0 := rfl
theorem regAddr_DBG_LOOP : regAddr .DBG_LOOP [] = 0x03C00020 + 0 := rfl
theorem regAddr_DBG_LOOPST : regAddr .DBG_LOOPST [] = 0x03C00028 + 0 := rfl
theorem regAddr_DBG_TRBUF (i : Nat) : regAddr .DBG_TRBUF [i] = 0x03C10000 + (0 + 0x8 * i) := rfl

end Sys2Proof.Machine
end

