-- ==== Sys2Proof/Laws/Bits.lean ====
section
/-! SUPPORT. Laws of bit fields, sparse maps and stores. -/

namespace Sys2Proof.Machine

/-! ### Bit fields -/

theorem bits_lt (v lo w : Nat) : bits v lo w < 2 ^ w := Nat.mod_lt _ (Nat.two_pow_pos w)

theorem bits_eq (v lo w : Nat) : bits v lo w = v / 2 ^ lo % 2 ^ w := by
  rw [bits, Nat.shiftRight_eq_div_pow]

/-- A number splits at a field: what is below it, the field, and what is above it. -/
theorem bits_split (v lo w : Nat) : v = v % 2 ^ lo + (bits v lo w) * 2 ^ lo + v / 2 ^ (lo + w) * 2 ^ (lo + w) := by
  rw [bits_eq, pow_add]
  have h1 := Nat.div_add_mod v (2 ^ lo)
  have h2 := Nat.div_add_mod (v / 2 ^ lo) (2 ^ w)
  rw [Nat.div_div_eq_div_mul] at h2
  calc v = 2 ^ lo * (v / 2 ^ lo) + v % 2 ^ lo := h1.symm
    _ = 2 ^ lo * (2 ^ w * (v / (2 ^ lo * 2 ^ w)) + v / 2 ^ lo % 2 ^ w) + v % 2 ^ lo := by rw [h2]
    _ = _ := by ring

theorem putBits_split (v lo w x : Nat) :
    putBits v lo w x = v % 2 ^ lo + (x % 2 ^ w) * 2 ^ lo + v / 2 ^ (lo + w) * 2 ^ (lo + w) := by
  have h := bits_split v lo w
  unfold putBits
  change v - bits v lo w * 2 ^ lo + x % 2 ^ w * 2 ^ lo = _
  omega

/-- A field just written reads as what was written. -/
@[simp] theorem bits_putBits_same (v lo w x : Nat) : bits (putBits v lo w x) lo w = x % 2 ^ w := by
  rw [putBits_split, bits_eq, pow_add]
  have h0 : v % 2 ^ lo < 2 ^ lo := Nat.mod_lt _ (Nat.two_pow_pos lo)
  have e : v % 2 ^ lo + x % 2 ^ w * 2 ^ lo + v / (2 ^ lo * 2 ^ w) * (2 ^ lo * 2 ^ w) =
      v % 2 ^ lo + 2 ^ lo * (x % 2 ^ w + 2 ^ w * (v / (2 ^ lo * 2 ^ w))) := by ring
  rw [e, Nat.add_mul_div_left _ _ (Nat.two_pow_pos lo), Nat.div_eq_of_lt h0, Nat.zero_add, Nat.add_mul_mod_self_left,
    Nat.mod_mod]

theorem mod_putBits_low (v lo w x a : Nat) (h : a ≤ lo) : putBits v lo w x % 2 ^ a = v % 2 ^ a := by
  rw [putBits_split]
  have d1 : 2 ^ a ∣ x % 2 ^ w * 2 ^ lo := Dvd.dvd.mul_left (pow_dvd_pow 2 h) _
  have d2 : 2 ^ a ∣ v / 2 ^ (lo + w) * 2 ^ (lo + w) := Dvd.dvd.mul_left (pow_dvd_pow 2 (by omega)) _
  rw [Nat.add_mod, Nat.mod_eq_zero_of_dvd d2, Nat.add_zero, Nat.mod_mod, Nat.add_mod, Nat.mod_eq_zero_of_dvd d1,
    Nat.add_zero, Nat.mod_mod, Nat.mod_mod_of_dvd _ (pow_dvd_pow 2 h)]

theorem div_putBits_high (v lo w x b : Nat) (h : lo + w ≤ b) : putBits v lo w x / 2 ^ b = v / 2 ^ b := by
  rw [putBits_split]
  obtain ⟨k, rfl⟩ := Nat.exists_eq_add_of_le h
  rw [pow_add 2 (lo + w) k, ← Nat.div_div_eq_div_mul, ← Nat.div_div_eq_div_mul]
  congr 1
  have h0 : v % 2 ^ lo < 2 ^ lo := Nat.mod_lt _ (Nat.two_pow_pos lo)
  have h1 : x % 2 ^ w < 2 ^ w := Nat.mod_lt _ (Nat.two_pow_pos w)
  have h2 : v % 2 ^ lo + x % 2 ^ w * 2 ^ lo < 2 ^ (lo + w) := by
    rw [pow_add]
    calc v % 2 ^ lo + x % 2 ^ w * 2 ^ lo < 2 ^ lo + x % 2 ^ w * 2 ^ lo := by omega
      _ = (x % 2 ^ w + 1) * 2 ^ lo := by ring
      _ ≤ 2 ^ w * 2 ^ lo := Nat.mul_le_mul_right _ h1
      _ = 2 ^ lo * 2 ^ w := Nat.mul_comm _ _
  rw [Nat.add_mul_div_right _ _ (Nat.two_pow_pos _), Nat.div_eq_of_lt h2, Nat.zero_add]

/-- A field written leaves every field that does not overlap it. -/
theorem bits_putBits_ne (v lo w x lo' w' : Nat) (h : lo' + w' ≤ lo ∨ lo + w ≤ lo') :
    bits (putBits v lo w x) lo' w' = bits v lo' w' := by
  rcases h with h | h
  · have e : ∀ u : Nat, bits u lo' w' = u % 2 ^ lo / 2 ^ lo' % 2 ^ w' := by
      intro u
      obtain ⟨k, rfl⟩ := Nat.exists_eq_add_of_le h
      rw [bits_eq, show lo' + w' + k = lo' + (w' + k) by omega, pow_add 2 lo' (w' + k), Nat.mod_mul_right_div_self,
        Nat.mod_mod_of_dvd _ (pow_dvd_pow 2 (by omega))]
    rw [e, e, mod_putBits_low _ _ _ _ _ (Nat.le_refl lo)]
  · rw [bits_eq, bits_eq, div_putBits_high _ _ _ _ _ h]

theorem putBits_lt (v lo w x n : Nat) (hv : v < 2 ^ n) (h : lo + w ≤ n) : putBits v lo w x < 2 ^ n := by
  have := div_putBits_high v lo w x n h
  rw [Nat.div_eq_of_lt hv] at this
  rcases Nat.div_eq_zero_iff.mp this with h0 | h0
  · exact absurd h0 (Nat.two_pow_pos n).ne'
  · exact h0

/-- A field within the low `n` bits does not see what stands above them. -/
theorem bits_mod (v lo w n : Nat) (h : lo + w ≤ n) : bits (v % 2 ^ n) lo w = bits v lo w := by
  rw [bits_eq, bits_eq]
  obtain ⟨k, rfl⟩ := Nat.exists_eq_add_of_le h
  rw [show lo + w + k = lo + (w + k) by omega, pow_add 2 lo (w + k), Nat.mod_mul_right_div_self,
    Nat.mod_mod_of_dvd _ (pow_dvd_pow 2 (by omega))]

theorem satAdd_le (w a n : Nat) : satAdd w a n ≤ 2 ^ w - 1 := Nat.min_le_right _ _

theorem satAdd_lt (w a n : Nat) : satAdd w a n < 2 ^ w :=
  Nat.lt_of_le_of_lt (satAdd_le w a n) (Nat.sub_lt (Nat.two_pow_pos w) Nat.one_pos)

theorem satAdd_of_le (w a n : Nat) (h : a + n ≤ 2 ^ w - 1) : satAdd w a n = a + n := Nat.min_eq_left h

end Sys2Proof.Machine

namespace Sys2Proof

/-! ### Sparse maps -/

variable {α : Type}

theorem SMap.get_put_same (d : α) (m : SMap α) (k : Nat) (v : α) : SMap.get d (SMap.put m k v) k = v := by
  induction m with
  | nil => simp [SMap.put, SMap.get]
  | cons e r ih =>
    obtain ⟨j, w⟩ := e
    simp only [SMap.put]
    split
    · simp [SMap.get]
    · split
      · simp [SMap.get]
      · simp [SMap.get, *]

theorem SMap.get_put_ne (d : α) (m : SMap α) (k k' : Nat) (v : α) (h : k' ≠ k) :
    SMap.get d (SMap.put m k v) k' = SMap.get d m k' := by
  induction m with
  | nil => simp [SMap.put, SMap.get, h.symm]
  | cons e r ih =>
    obtain ⟨j, w⟩ := e
    simp only [SMap.put]
    split
    · subst_vars; simp [SMap.get, h.symm]
    · split
      · simp [SMap.get, h.symm]
      · simp [SMap.get, ih]

theorem SMap.get_del_same (d : α) (m : SMap α) (k : Nat) : SMap.get d (SMap.del m k) k = d := by
  induction m with
  | nil => rfl
  | cons e r ih =>
    obtain ⟨j, w⟩ := e
    simp only [SMap.del]
    split
    · exact ih
    · simp [SMap.get, *]

theorem SMap.get_del_ne (d : α) (m : SMap α) (k k' : Nat) (h : k' ≠ k) :
    SMap.get d (SMap.del m k) k' = SMap.get d m k' := by
  induction m with
  | nil => rfl
  | cons e r ih =>
    obtain ⟨j, w⟩ := e
    simp only [SMap.del]
    split
    · subst_vars; simp [SMap.get, h.symm, ih]
    · simp [SMap.get, ih]

/-- A key just set reads as what was set. -/
@[simp] theorem SMap.get_set_same [DecidableEq α] (d : α) (m : SMap α) (k : Nat) (v : α) :
    SMap.get d (SMap.set d m k v) k = v := by
  unfold SMap.set
  split
  · rw [SMap.get_del_same]; exact (‹v = d›).symm
  · exact SMap.get_put_same d m k v

/-- Setting a key leaves every other key. -/
theorem SMap.get_set_ne [DecidableEq α] (d : α) (m : SMap α) (k k' : Nat) (v : α) (h : k' ≠ k) :
    SMap.get d (SMap.set d m k v) k' = SMap.get d m k' := by
  unfold SMap.set
  split
  · exact SMap.get_del_ne d m k k' h
  · exact SMap.get_put_ne d m k k' v h

@[simp] theorem SMap.get_upd_same [DecidableEq α] (d : α) (m : SMap α) (k : Nat) (f : α → α) :
    SMap.get d (SMap.upd d m k f) k = f (SMap.get d m k) := SMap.get_set_same d m k _

theorem SMap.get_upd_ne [DecidableEq α] (d : α) (m : SMap α) (k k' : Nat) (f : α → α) (h : k' ≠ k) :
    SMap.get d (SMap.upd d m k f) k' = SMap.get d m k' := SMap.get_set_ne d m k k' _ h

theorem SMap.find_put_same (m : SMap α) (k : Nat) (v : α) : SMap.find (SMap.put m k v) k = some v := by
  induction m with
  | nil => simp [SMap.put, SMap.find]
  | cons e r ih =>
    obtain ⟨j, w⟩ := e
    simp only [SMap.put]
    split
    · simp [SMap.find]
    · split
      · simp [SMap.find]
      · simp [SMap.find, *]

theorem SMap.find_put_ne (m : SMap α) (k k' : Nat) (v : α) (h : k' ≠ k) :
    SMap.find (SMap.put m k v) k' = SMap.find m k' := by
  induction m with
  | nil => simp [SMap.put, SMap.find, h.symm]
  | cons e r ih =>
    obtain ⟨j, w⟩ := e
    simp only [SMap.put]
    split
    · subst_vars; simp [SMap.find, h.symm]
    · split
      · simp [SMap.find, h.symm]
      · simp [SMap.find, ih]

theorem SMap.find_del_same (m : SMap α) (k : Nat) : SMap.find (SMap.del m k) k = none := by
  induction m with
  | nil => rfl
  | cons e r ih =>
    obtain ⟨j, w⟩ := e
    simp only [SMap.del]
    split
    · exact ih
    · simp [SMap.find, *]

theorem SMap.find_del_ne (m : SMap α) (k k' : Nat) (h : k' ≠ k) : SMap.find (SMap.del m k) k' = SMap.find m k' := by
  induction m with
  | nil => rfl
  | cons e r ih =>
    obtain ⟨j, w⟩ := e
    simp only [SMap.del]
    split
    · subst_vars; simp [SMap.find, h.symm, ih]
    · simp [SMap.find, ih]

/-! ### Canonical form -/

/-- Every key of a map is above `b`. -/
def SMap.above (b : Nat) (m : SMap α) : Prop := ∀ e ∈ m, b < e.1

theorem SMap.wf_cons [DecidableEq α] (d : α) (j : Nat) (v : α) (r : SMap α) :
    SMap.wf d ((j, v) :: r) = true ↔ v ≠ d ∧ SMap.above j r ∧ SMap.wf d r = true := by
  induction r generalizing j v with
  | nil => simp [SMap.wf, SMap.above]
  | cons e r ih =>
    obtain ⟨k, w⟩ := e
    rw [show SMap.wf d ((j, v) :: (k, w) :: r) = (decide (v ≠ d) && decide (j < k) && SMap.wf d ((k, w) :: r)) from rfl]
    simp only [Bool.and_eq_true, decide_eq_true_eq]
    constructor
    · rintro ⟨⟨hv, hj⟩, hr⟩
      refine ⟨hv, ?_, hr⟩
      have := (ih k w).mp hr
      intro e he
      rcases List.mem_cons.mp he with rfl | he
      · exact hj
      · exact Nat.lt_trans hj (this.2.1 e he)
    · rintro ⟨hv, ha, hr⟩
      exact ⟨⟨hv, ha (k, w) (List.mem_cons_self ..)⟩, hr⟩

theorem SMap.above_put (b k : Nat) (v : α) (m : SMap α) (hk : b < k) (h : SMap.above b m) : SMap.above b (SMap.put m k v) := by
  induction m with
  | nil => intro e he; simp [SMap.put] at he; subst he; exact hk
  | cons e r ih =>
    obtain ⟨j, w⟩ := e
    have hr : SMap.above b r := fun e he => h e (List.mem_cons_of_mem _ he)
    have hj : b < j := h (j, w) (List.mem_cons_self ..)
    simp only [SMap.put]
    split
    · intro e he
      rcases List.mem_cons.mp he with rfl | he
      · exact hk
      · exact hr e he
    · split
      · intro e he
        rcases List.mem_cons.mp he with rfl | he
        · exact hk
        · exact h e he
      · intro e he
        rcases List.mem_cons.mp he with rfl | he
        · exact hj
        · exact ih hr e he

theorem SMap.mem_of_mem_del (m : SMap α) (k : Nat) : ∀ e ∈ SMap.del m k, e ∈ m := by
  induction m with
  | nil => intro e he; exact he
  | cons e r ih =>
    obtain ⟨j, w⟩ := e
    intro e he
    simp only [SMap.del] at he
    split at he
    · exact List.mem_cons_of_mem _ (ih e he)
    · rcases List.mem_cons.mp he with rfl | he
      · exact List.mem_cons_self ..
      · exact List.mem_cons_of_mem _ (ih e he)

/-- Every write keeps the canonical form. -/
theorem SMap.wf_put [DecidableEq α] (d : α) (m : SMap α) (k : Nat) (v : α) (hv : v ≠ d) (h : SMap.wf d m = true) :
    SMap.wf d (SMap.put m k v) = true := by
  induction m with
  | nil => simp [SMap.put, SMap.wf, hv]
  | cons e r ih =>
    obtain ⟨j, w⟩ := e
    have h' := (SMap.wf_cons d j w r).mp h
    simp only [SMap.put]
    split
    · subst_vars; exact (SMap.wf_cons ..).mpr ⟨hv, h'.2.1, h'.2.2⟩
    · split
      · refine (SMap.wf_cons ..).mpr ⟨hv, ?_, h⟩
        intro e he
        rcases List.mem_cons.mp he with rfl | he
        · assumption
        · exact Nat.lt_trans ‹k < j› (h'.2.1 e he)
      · exact (SMap.wf_cons ..).mpr ⟨h'.1, SMap.above_put j k v r (by omega) h'.2.1, ih h'.2.2⟩

theorem SMap.wf_del [DecidableEq α] (d : α) (m : SMap α) (k : Nat) (h : SMap.wf d m = true) :
    SMap.wf d (SMap.del m k) = true := by
  induction m with
  | nil => exact h
  | cons e r ih =>
    obtain ⟨j, w⟩ := e
    have h' := (SMap.wf_cons d j w r).mp h
    simp only [SMap.del]
    split
    · exact ih h'.2.2
    · exact (SMap.wf_cons ..).mpr ⟨h'.1, fun e he => h'.2.1 e (SMap.mem_of_mem_del r k e he), ih h'.2.2⟩

theorem SMap.wf_set [DecidableEq α] (d : α) (m : SMap α) (k : Nat) (v : α) (h : SMap.wf d m = true) :
    SMap.wf d (SMap.set d m k v) = true := by
  unfold SMap.set
  split
  · exact SMap.wf_del d m k h
  · exact SMap.wf_put d m k v ‹_› h

theorem SMap.wf_filter [DecidableEq α] (d : α) (p : Nat × α → Bool) (m : SMap α) (h : SMap.wf d m = true) :
    SMap.wf d (List.filter p m) = true := by
  induction m with
  | nil => exact h
  | cons e r ih =>
    obtain ⟨j, w⟩ := e
    have h' := (SMap.wf_cons d j w r).mp h
    rw [List.filter_cons]
    split
    · exact (SMap.wf_cons ..).mpr ⟨h'.1, fun e he => h'.2.1 e (List.mem_of_mem_filter he), ih h'.2.2⟩
    · exact ih h'.2.2

/-! ### Stores -/

@[simp] theorem Mem.byte_write_same (m : Mem) (a : Nat) (b : Byte) : (m.write a b).byte a = b := SMap.get_set_same 0 m a b

theorem Mem.byte_write_ne (m : Mem) (a a' : Nat) (b : Byte) (h : a' ≠ a) : (m.write a b).byte a' = m.byte a' :=
  SMap.get_set_ne 0 m a a' b h

theorem Mem.wf_write (m : Mem) (a : Nat) (b : Byte) (h : m.wf = true) : (m.write a b).wf = true := SMap.wf_set 0 m a b h

/-- A byte string just written reads back; every byte outside it is as before. -/
theorem Mem.byte_store (m : Mem) (a a' : Nat) (bs : Bytes) :
    (Mem.store m a bs).byte a' = if a ≤ a' ∧ a' < a + bs.length then bs.getD (a' - a) 0 else m.byte a' := by
  induction bs generalizing m a with
  | nil => simp only [Mem.store, List.length_nil, Nat.add_zero]; rw [if_neg (by omega)]
  | cons b r ih =>
    rw [Mem.store, ih]
    by_cases h1 : a' = a
    · subst h1
      rw [if_neg (by omega), Mem.byte_write_same, if_pos (by simp)]
      simp
    · rw [Mem.byte_write_ne _ _ _ _ h1]
      by_cases h2 : a + 1 ≤ a' ∧ a' < a + 1 + r.length
      · rw [if_pos h2, if_pos (by simp only [List.length_cons]; omega), show a' - a = (a' - (a + 1)) + 1 by omega]
        simp
      · rw [if_neg h2, if_neg (by simp only [List.length_cons]; omega)]

theorem Mem.wf_store (m : Mem) (a : Nat) (bs : Bytes) (h : m.wf = true) : (Mem.store m a bs).wf = true := by
  induction bs generalizing m a with
  | nil => exact h
  | cons b r ih => exact ih _ _ (Mem.wf_write m a b h)

theorem Mem.byte_clear (m : Mem) (lo hi a : Nat) :
    (Mem.clear m lo hi).byte a = if lo ≤ a ∧ a < hi then 0 else m.byte a := by
  unfold Mem.clear Mem.byte
  induction m with
  | nil => simp [SMap.get]
  | cons e r ih =>
    obtain ⟨j, w⟩ := e
    rw [List.filter_cons]
    split
    · rename_i hj
      simp only [decide_eq_true_eq] at hj
      simp only [SMap.get]
      by_cases e1 : j = a
      · subst e1
        rw [if_pos rfl, if_pos rfl, if_neg (by omega)]
      · rw [if_neg e1, if_neg e1, ih]
    · rename_i hj
      simp only [decide_eq_true_eq] at hj
      rw [ih]
      simp only [SMap.get]
      by_cases e1 : j = a
      · subst e1
        rw [if_pos (by omega), if_pos (by omega)]
      · rw [if_neg e1]

theorem Mem.wf_clear (m : Mem) (lo hi : Nat) (h : m.wf = true) : (Mem.clear m lo hi).wf = true := SMap.wf_filter 0 _ m h

@[simp] theorem Mem.bytes_length (m : Mem) (a n : Nat) : (m.bytes a n).length = n := by
  induction n generalizing a with
  | zero => rfl
  | succ n ih => simp [Mem.bytes, ih]

/-- What was just stored is read back. -/
theorem Mem.bytes_store_same (m : Mem) (a : Nat) (bs : Bytes) : (Mem.store m a bs).bytes a bs.length = bs := by
  have key : ∀ (n k : Nat), k + n = bs.length → (Mem.store m a bs).bytes (a + k) n = bs.drop k := by
    intro n
    induction n with
    | zero => intro k hk; rw [List.drop_eq_nil_of_le (by omega)]; rfl
    | succ n ih =>
      intro k hk
      rw [Mem.bytes, show a + k + 1 = a + (k + 1) by omega, ih (k + 1) (by omega), Mem.byte_store, if_pos (by omega),
        show a + k - a = k by omega]
      rw [List.drop_eq_getElem_cons (by omega : k < bs.length), List.getD_eq_getElem?_getD,
        List.getElem?_eq_getElem (by omega : k < bs.length)]
      rfl
  simpa using key bs.length 0 (by omega)

end Sys2Proof

namespace Sys2Proof.Machine

/-! ### Byte strings -/

@[simp] theorem leBytes_length (n v : Nat) : (leBytes n v).length = n := by
  induction n generalizing v with
  | zero => rfl
  | succ n ih => simp [leBytes, ih]

/-- The number that the low bytes of a number spell. -/
theorem leNat_leBytes (n v : Nat) : leNat (leBytes n v) = v % 256 ^ n := by
  induction n generalizing v with
  | zero => simp [leBytes, leNat, Nat.mod_one]
  | succ n ih =>
    simp only [leBytes, leNat, ih, BitVec.toNat_ofNat]
    rw [show (256 : Nat) ^ (n + 1) = 256 * 256 ^ n by rw [pow_succ, Nat.mul_comm], Nat.mod_mul,
      show (2 : Nat) ^ 8 = 256 by rfl]

end Sys2Proof.Machine
end

