-- ==== Sys2Proof/Laws/State.lean ====
section
/-! SUPPORT. Each basic update of State, field by field: what it leaves. -/

namespace Sys2Proof.Machine

variable (s : State)

@[simp] theorem State.setWord_pending (r : RegId) (ix : List Nat) (v : Nat) : (s.setWord r ix v).pending = s.pending := rfl
@[simp] theorem State.setWord_fuses (r : RegId) (ix : List Nat) (v : Nat) : (s.setWord r ix v).fuses = s.fuses := rfl
@[simp] theorem State.setWord_fmap (r : RegId) (ix : List Nat) (v : Nat) : (s.setWord r ix v).fmap = s.fmap := rfl
@[simp] theorem State.setWord_cl (r : RegId) (ix : List Nat) (v : Nat) : (s.setWord r ix v).cl = s.cl := rfl
@[simp] theorem State.setWord_pt (r : RegId) (ix : List Nat) (v : Nat) : (s.setWord r ix v).pt = s.pt := rfl
@[simp] theorem State.setWord_tnet (r : RegId) (ix : List Nat) (v : Nat) : (s.setWord r ix v).tnet = s.tnet := rfl
@[simp] theorem State.setWord_evq (r : RegId) (ix : List Nat) (v : Nat) : (s.setWord r ix v).evq = s.evq := rfl
@[simp] theorem State.setWord_evSeq (r : RegId) (ix : List Nat) (v : Nat) : (s.setWord r ix v).evSeq = s.evSeq := rfl
@[simp] theorem State.setWord_evDrop (r : RegId) (ix : List Nat) (v : Nat) : (s.setWord r ix v).evDrop = s.evDrop := rfl
@[simp] theorem State.setWord_ringLog (r : RegId) (ix : List Nat) (v : Nat) : (s.setWord r ix v).ringLog = s.ringLog := rfl
@[simp] theorem State.setWord_once (r : RegId) (ix : List Nat) (v : Nat) : (s.setWord r ix v).once = s.once := rfl
@[simp] theorem State.setWord_cclkBad (r : RegId) (ix : List Nat) (v : Nat) : (s.setWord r ix v).cclkBad = s.cclkBad := rfl
@[simp] theorem State.setWord_rampExt (r : RegId) (ix : List Nat) (v : Nat) : (s.setWord r ix v).rampExt = s.rampExt := rfl
@[simp] theorem State.setWord_out (r : RegId) (ix : List Nat) (v : Nat) : (s.setWord r ix v).out = s.out := rfl
@[simp] theorem State.setWord_od (r : RegId) (ix : List Nat) (v : Nat) : (s.setWord r ix v).od = s.od := rfl
@[simp] theorem State.setWord_cfgNext (r : RegId) (ix : List Nat) (v : Nat) : (s.setWord r ix v).cfgNext = s.cfgNext := rfl
@[simp] theorem State.setWord_cfgLate (r : RegId) (ix : List Nat) (v : Nat) : (s.setWord r ix v).cfgLate = s.cfgLate := rfl
@[simp] theorem State.setWord_land (r : RegId) (ix : List Nat) (v : Nat) : (s.setWord r ix v).land = s.land := rfl
@[simp] theorem State.setWord_tide (r : RegId) (ix : List Nat) (v : Nat) : (s.setWord r ix v).tide = s.tide := rfl
@[simp] theorem State.setWord_helm (r : RegId) (ix : List Nat) (v : Nat) : (s.setWord r ix v).helm = s.helm := rfl
@[simp] theorem State.setWord_pow (r : RegId) (ix : List Nat) (v : Nat) : (s.setWord r ix v).pow = s.pow := rfl
@[simp] theorem State.setWord_bring (r : RegId) (ix : List Nat) (v : Nat) : (s.setWord r ix v).bring = s.bring := rfl
@[simp] theorem State.setWord_tap (r : RegId) (ix : List Nat) (v : Nat) : (s.setWord r ix v).tap = s.tap := rfl
@[simp] theorem State.setWord_i3c (r : RegId) (ix : List Nat) (v : Nat) : (s.setWord r ix v).i3c = s.i3c := rfl
@[simp] theorem State.setWord_mp (r : RegId) (ix : List Nat) (v : Nat) : (s.setWord r ix v).mp = s.mp := rfl
@[simp] theorem State.setWord_pads (r : RegId) (ix : List Nat) (v : Nat) : (s.setWord r ix v).pads = s.pads := rfl
@[simp] theorem State.setWord_fe (r : RegId) (ix : List Nat) (v : Nat) : (s.setWord r ix v).fe = s.fe := rfl
@[simp] theorem State.setWord_coh (r : RegId) (ix : List Nat) (v : Nat) : (s.setWord r ix v).coh = s.coh := rfl
@[simp] theorem State.setWord_scache (r : RegId) (ix : List Nat) (v : Nat) : (s.setWord r ix v).scache = s.scache := rfl
@[simp] theorem State.setWord_ringLast (r : RegId) (ix : List Nat) (v : Nat) : (s.setWord r ix v).ringLast = s.ringLast := rfl
@[simp] theorem State.setWord_ringTick (r : RegId) (ix : List Nat) (v : Nat) : (s.setWord r ix v).ringTick = s.ringTick := rfl
@[simp] theorem State.setWord_tails (r : RegId) (ix : List Nat) (v : Nat) : (s.setWord r ix v).tails = s.tails := rfl
@[simp] theorem State.setWord_ringErr (r : RegId) (ix : List Nat) (v : Nat) : (s.setWord r ix v).ringErr = s.ringErr := rfl
@[simp] theorem State.setWord_evOut (r : RegId) (ix : List Nat) (v : Nat) : (s.setWord r ix v).evOut = s.evOut := rfl
@[simp] theorem State.setWord_seOut (r : RegId) (ix : List Nat) (v : Nat) : (s.setWord r ix v).seOut = s.seOut := rfl
@[simp] theorem State.setWord_engs (r : RegId) (ix : List Nat) (v : Nat) : (s.setWord r ix v).engs = s.engs := rfl
@[simp] theorem State.setWord_nextUid (r : RegId) (ix : List Nat) (v : Nat) : (s.setWord r ix v).nextUid = s.nextUid := rfl
@[simp] theorem State.setWord_nextTag (r : RegId) (ix : List Nat) (v : Nat) : (s.setWord r ix v).nextTag = s.nextTag := rfl
@[simp] theorem State.setWord_nextWalk (r : RegId) (ix : List Nat) (v : Nat) : (s.setWord r ix v).nextWalk = s.nextWalk := rfl
@[simp] theorem State.setWord_walks (r : RegId) (ix : List Nat) (v : Nat) : (s.setWord r ix v).walks = s.walks := rfl
@[simp] theorem State.setWord_cache (r : RegId) (ix : List Nat) (v : Nat) : (s.setWord r ix v).cache = s.cache := rfl
@[simp] theorem State.setWord_bucket (r : RegId) (ix : List Nat) (v : Nat) : (s.setWord r ix v).bucket = s.bucket := rfl
@[simp] theorem State.setWord_gone (r : RegId) (ix : List Nat) (v : Nat) : (s.setWord r ix v).gone = s.gone := rfl
@[simp] theorem State.setWord_frecs (r : RegId) (ix : List Nat) (v : Nat) : (s.setWord r ix v).frecs = s.frecs := rfl
@[simp] theorem State.setWord_fqFull (r : RegId) (ix : List Nat) (v : Nat) : (s.setWord r ix v).fqFull = s.fqFull := rfl
@[simp] theorem State.setWord_drains (r : RegId) (ix : List Nat) (v : Nat) : (s.setWord r ix v).drains = s.drains := rfl
@[simp] theorem State.setWord_pcmd (r : RegId) (ix : List Nat) (v : Nat) : (s.setWord r ix v).pcmd = s.pcmd := rfl
@[simp] theorem State.setWord_gbw (r : RegId) (ix : List Nat) (v : Nat) : (s.setWord r ix v).gbw = s.gbw := rfl
@[simp] theorem State.setWord_dbw (r : RegId) (ix : List Nat) (v : Nat) : (s.setWord r ix v).dbw = s.dbw := rfl
@[simp] theorem State.setWord_trace (r : RegId) (ix : List Nat) (v : Nat) : (s.setWord r ix v).trace = s.trace := rfl
@[simp] theorem State.setWord_trHeld (r : RegId) (ix : List Nat) (v : Nat) : (s.setWord r ix v).trHeld = s.trHeld := rfl
@[simp] theorem State.setWord_cap (r : RegId) (ix : List Nat) (v : Nat) : (s.setWord r ix v).cap = s.cap := rfl
@[simp] theorem State.setWord_scmdq (r : RegId) (ix : List Nat) (v : Nat) : (s.setWord r ix v).scmdq = s.scmdq := rfl
@[simp] theorem State.setWord_free (r : RegId) (ix : List Nat) (v : Nat) : (s.setWord r ix v).free = s.free := rfl
@[simp] theorem State.setWord_lastStat (r : RegId) (ix : List Nat) (v : Nat) : (s.setWord r ix v).lastStat = s.lastStat := rfl
@[simp] theorem State.setWord_lastData (r : RegId) (ix : List Nat) (v : Nat) : (s.setWord r ix v).lastData = s.lastData := rfl

@[simp] theorem State.setFld_pending (f : Fld) (ix : List Nat) (v : Nat) : (s.setFld f ix v).pending = s.pending := rfl
@[simp] theorem State.setFld_fuses (f : Fld) (ix : List Nat) (v : Nat) : (s.setFld f ix v).fuses = s.fuses := rfl
@[simp] theorem State.setFld_fmap (f : Fld) (ix : List Nat) (v : Nat) : (s.setFld f ix v).fmap = s.fmap := rfl
@[simp] theorem State.setFld_cl (f : Fld) (ix : List Nat) (v : Nat) : (s.setFld f ix v).cl = s.cl := rfl
@[simp] theorem State.setFld_pt (f : Fld) (ix : List Nat) (v : Nat) : (s.setFld f ix v).pt = s.pt := rfl
@[simp] theorem State.setFld_tnet (f : Fld) (ix : List Nat) (v : Nat) : (s.setFld f ix v).tnet = s.tnet := rfl
@[simp] theorem State.setFld_evq (f : Fld) (ix : List Nat) (v : Nat) : (s.setFld f ix v).evq = s.evq := rfl
@[simp] theorem State.setFld_evSeq (f : Fld) (ix : List Nat) (v : Nat) : (s.setFld f ix v).evSeq = s.evSeq := rfl
@[simp] theorem State.setFld_evDrop (f : Fld) (ix : List Nat) (v : Nat) : (s.setFld f ix v).evDrop = s.evDrop := rfl
@[simp] theorem State.setFld_ringLog (f : Fld) (ix : List Nat) (v : Nat) : (s.setFld f ix v).ringLog = s.ringLog := rfl
@[simp] theorem State.setFld_once (f : Fld) (ix : List Nat) (v : Nat) : (s.setFld f ix v).once = s.once := rfl
@[simp] theorem State.setFld_cclkBad (f : Fld) (ix : List Nat) (v : Nat) : (s.setFld f ix v).cclkBad = s.cclkBad := rfl
@[simp] theorem State.setFld_rampExt (f : Fld) (ix : List Nat) (v : Nat) : (s.setFld f ix v).rampExt = s.rampExt := rfl
@[simp] theorem State.setFld_out (f : Fld) (ix : List Nat) (v : Nat) : (s.setFld f ix v).out = s.out := rfl
@[simp] theorem State.setFld_od (f : Fld) (ix : List Nat) (v : Nat) : (s.setFld f ix v).od = s.od := rfl
@[simp] theorem State.setFld_cfgNext (f : Fld) (ix : List Nat) (v : Nat) : (s.setFld f ix v).cfgNext = s.cfgNext := rfl
@[simp] theorem State.setFld_cfgLate (f : Fld) (ix : List Nat) (v : Nat) : (s.setFld f ix v).cfgLate = s.cfgLate := rfl
@[simp] theorem State.setFld_land (f : Fld) (ix : List Nat) (v : Nat) : (s.setFld f ix v).land = s.land := rfl
@[simp] theorem State.setFld_tide (f : Fld) (ix : List Nat) (v : Nat) : (s.setFld f ix v).tide = s.tide := rfl
@[simp] theorem State.setFld_helm (f : Fld) (ix : List Nat) (v : Nat) : (s.setFld f ix v).helm = s.helm := rfl
@[simp] theorem State.setFld_pow (f : Fld) (ix : List Nat) (v : Nat) : (s.setFld f ix v).pow = s.pow := rfl
@[simp] theorem State.setFld_bring (f : Fld) (ix : List Nat) (v : Nat) : (s.setFld f ix v).bring = s.bring := rfl
@[simp] theorem State.setFld_tap (f : Fld) (ix : List Nat) (v : Nat) : (s.setFld f ix v).tap = s.tap := rfl
@[simp] theorem State.setFld_i3c (f : Fld) (ix : List Nat) (v : Nat) : (s.setFld f ix v).i3c = s.i3c := rfl
@[simp] theorem State.setFld_mp (f : Fld) (ix : List Nat) (v : Nat) : (s.setFld f ix v).mp = s.mp := rfl
@[simp] theorem State.setFld_pads (f : Fld) (ix : List Nat) (v : Nat) : (s.setFld f ix v).pads = s.pads := rfl
@[simp] theorem State.setFld_fe (f : Fld) (ix : List Nat) (v : Nat) : (s.setFld f ix v).fe = s.fe := rfl
@[simp] theorem State.setFld_coh (f : Fld) (ix : List Nat) (v : Nat) : (s.setFld f ix v).coh = s.coh := rfl
@[simp] theorem State.setFld_scache (f : Fld) (ix : List Nat) (v : Nat) : (s.setFld f ix v).scache = s.scache := rfl
@[simp] theorem State.setFld_ringLast (f : Fld) (ix : List Nat) (v : Nat) : (s.setFld f ix v).ringLast = s.ringLast := rfl
@[simp] theorem State.setFld_ringTick (f : Fld) (ix : List Nat) (v : Nat) : (s.setFld f ix v).ringTick = s.ringTick := rfl
@[simp] theorem State.setFld_tails (f : Fld) (ix : List Nat) (v : Nat) : (s.setFld f ix v).tails = s.tails := rfl
@[simp] theorem State.setFld_ringErr (f : Fld) (ix : List Nat) (v : Nat) : (s.setFld f ix v).ringErr = s.ringErr := rfl
@[simp] theorem State.setFld_evOut (f : Fld) (ix : List Nat) (v : Nat) : (s.setFld f ix v).evOut = s.evOut := rfl
@[simp] theorem State.setFld_seOut (f : Fld) (ix : List Nat) (v : Nat) : (s.setFld f ix v).seOut = s.seOut := rfl
@[simp] theorem State.setFld_engs (f : Fld) (ix : List Nat) (v : Nat) : (s.setFld f ix v).engs = s.engs := rfl
@[simp] theorem State.setFld_nextUid (f : Fld) (ix : List Nat) (v : Nat) : (s.setFld f ix v).nextUid = s.nextUid := rfl
@[simp] theorem State.setFld_nextTag (f : Fld) (ix : List Nat) (v : Nat) : (s.setFld f ix v).nextTag = s.nextTag := rfl
@[simp] theorem State.setFld_nextWalk (f : Fld) (ix : List Nat) (v : Nat) : (s.setFld f ix v).nextWalk = s.nextWalk := rfl
@[simp] theorem State.setFld_walks (f : Fld) (ix : List Nat) (v : Nat) : (s.setFld f ix v).walks = s.walks := rfl
@[simp] theorem State.setFld_cache (f : Fld) (ix : List Nat) (v : Nat) : (s.setFld f ix v).cache = s.cache := rfl
@[simp] theorem State.setFld_bucket (f : Fld) (ix : List Nat) (v : Nat) : (s.setFld f ix v).bucket = s.bucket := rfl
@[simp] theorem State.setFld_gone (f : Fld) (ix : List Nat) (v : Nat) : (s.setFld f ix v).gone = s.gone := rfl
@[simp] theorem State.setFld_frecs (f : Fld) (ix : List Nat) (v : Nat) : (s.setFld f ix v).frecs = s.frecs := rfl
@[simp] theorem State.setFld_fqFull (f : Fld) (ix : List Nat) (v : Nat) : (s.setFld f ix v).fqFull = s.fqFull := rfl
@[simp] theorem State.setFld_drains (f : Fld) (ix : List Nat) (v : Nat) : (s.setFld f ix v).drains = s.drains := rfl
@[simp] theorem State.setFld_pcmd (f : Fld) (ix : List Nat) (v : Nat) : (s.setFld f ix v).pcmd = s.pcmd := rfl
@[simp] theorem State.setFld_gbw (f : Fld) (ix : List Nat) (v : Nat) : (s.setFld f ix v).gbw = s.gbw := rfl
@[simp] theorem State.setFld_dbw (f : Fld) (ix : List Nat) (v : Nat) : (s.setFld f ix v).dbw = s.dbw := rfl
@[simp] theorem State.setFld_trace (f : Fld) (ix : List Nat) (v : Nat) : (s.setFld f ix v).trace = s.trace := rfl
@[simp] theorem State.setFld_trHeld (f : Fld) (ix : List Nat) (v : Nat) : (s.setFld f ix v).trHeld = s.trHeld := rfl
@[simp] theorem State.setFld_cap (f : Fld) (ix : List Nat) (v : Nat) : (s.setFld f ix v).cap = s.cap := rfl
@[simp] theorem State.setFld_scmdq (f : Fld) (ix : List Nat) (v : Nat) : (s.setFld f ix v).scmdq = s.scmdq := rfl
@[simp] theorem State.setFld_free (f : Fld) (ix : List Nat) (v : Nat) : (s.setFld f ix v).free = s.free := rfl
@[simp] theorem State.setFld_lastStat (f : Fld) (ix : List Nat) (v : Nat) : (s.setFld f ix v).lastStat = s.lastStat := rfl
@[simp] theorem State.setFld_lastData (f : Fld) (ix : List Nat) (v : Nat) : (s.setFld f ix v).lastData = s.lastData := rfl

@[simp] theorem State.incFld_pending (f : Fld) (ix : List Nat) (n : Nat) : (s.incFld f ix n).pending = s.pending := rfl
@[simp] theorem State.incFld_fuses (f : Fld) (ix : List Nat) (n : Nat) : (s.incFld f ix n).fuses = s.fuses := rfl
@[simp] theorem State.incFld_fmap (f : Fld) (ix : List Nat) (n : Nat) : (s.incFld f ix n).fmap = s.fmap := rfl
@[simp] theorem State.incFld_cl (f : Fld) (ix : List Nat) (n : Nat) : (s.incFld f ix n).cl = s.cl := rfl
@[simp] theorem State.incFld_pt (f : Fld) (ix : List Nat) (n : Nat) : (s.incFld f ix n).pt = s.pt := rfl
@[simp] theorem State.incFld_tnet (f : Fld) (ix : List Nat) (n : Nat) : (s.incFld f ix n).tnet = s.tnet := rfl
@[simp] theorem State.incFld_evq (f : Fld) (ix : List Nat) (n : Nat) : (s.incFld f ix n).evq = s.evq := rfl
@[simp] theorem State.incFld_evSeq (f : Fld) (ix : List Nat) (n : Nat) : (s.incFld f ix n).evSeq = s.evSeq := rfl
@[simp] theorem State.incFld_evDrop (f : Fld) (ix : List Nat) (n : Nat) : (s.incFld f ix n).evDrop = s.evDrop := rfl
@[simp] theorem State.incFld_ringLog (f : Fld) (ix : List Nat) (n : Nat) : (s.incFld f ix n).ringLog = s.ringLog := rfl
@[simp] theorem State.incFld_once (f : Fld) (ix : List Nat) (n : Nat) : (s.incFld f ix n).once = s.once := rfl
@[simp] theorem State.incFld_cclkBad (f : Fld) (ix : List Nat) (n : Nat) : (s.incFld f ix n).cclkBad = s.cclkBad := rfl
@[simp] theorem State.incFld_rampExt (f : Fld) (ix : List Nat) (n : Nat) : (s.incFld f ix n).rampExt = s.rampExt := rfl
@[simp] theorem State.incFld_out (f : Fld) (ix : List Nat) (n : Nat) : (s.incFld f ix n).out = s.out := rfl
@[simp] theorem State.incFld_od (f : Fld) (ix : List Nat) (n : Nat) : (s.incFld f ix n).od = s.od := rfl
@[simp] theorem State.incFld_cfgNext (f : Fld) (ix : List Nat) (n : Nat) : (s.incFld f ix n).cfgNext = s.cfgNext := rfl
@[simp] theorem State.incFld_cfgLate (f : Fld) (ix : List Nat) (n : Nat) : (s.incFld f ix n).cfgLate = s.cfgLate := rfl
@[simp] theorem State.incFld_land (f : Fld) (ix : List Nat) (n : Nat) : (s.incFld f ix n).land = s.land := rfl
@[simp] theorem State.incFld_tide (f : Fld) (ix : List Nat) (n : Nat) : (s.incFld f ix n).tide = s.tide := rfl
@[simp] theorem State.incFld_helm (f : Fld) (ix : List Nat) (n : Nat) : (s.incFld f ix n).helm = s.helm := rfl
@[simp] theorem State.incFld_pow (f : Fld) (ix : List Nat) (n : Nat) : (s.incFld f ix n).pow = s.pow := rfl
@[simp] theorem State.incFld_bring (f : Fld) (ix : List Nat) (n : Nat) : (s.incFld f ix n).bring = s.bring := rfl
@[simp] theorem State.incFld_tap (f : Fld) (ix : List Nat) (n : Nat) : (s.incFld f ix n).tap = s.tap := rfl
@[simp] theorem State.incFld_i3c (f : Fld) (ix : List Nat) (n : Nat) : (s.incFld f ix n).i3c = s.i3c := rfl
@[simp] theorem State.incFld_mp (f : Fld) (ix : List Nat) (n : Nat) : (s.incFld f ix n).mp = s.mp := rfl
@[simp] theorem State.incFld_pads (f : Fld) (ix : List Nat) (n : Nat) : (s.incFld f ix n).pads = s.pads := rfl
@[simp] theorem State.incFld_fe (f : Fld) (ix : List Nat) (n : Nat) : (s.incFld f ix n).fe = s.fe := rfl
@[simp] theorem State.incFld_coh (f : Fld) (ix : List Nat) (n : Nat) : (s.incFld f ix n).coh = s.coh := rfl
@[simp] theorem State.incFld_scache (f : Fld) (ix : List Nat) (n : Nat) : (s.incFld f ix n).scache = s.scache := rfl
@[simp] theorem State.incFld_ringLast (f : Fld) (ix : List Nat) (n : Nat) : (s.incFld f ix n).ringLast = s.ringLast := rfl
@[simp] theorem State.incFld_ringTick (f : Fld) (ix : List Nat) (n : Nat) : (s.incFld f ix n).ringTick = s.ringTick := rfl
@[simp] theorem State.incFld_tails (f : Fld) (ix : List Nat) (n : Nat) : (s.incFld f ix n).tails = s.tails := rfl
@[simp] theorem State.incFld_ringErr (f : Fld) (ix : List Nat) (n : Nat) : (s.incFld f ix n).ringErr = s.ringErr := rfl
@[simp] theorem State.incFld_evOut (f : Fld) (ix : List Nat) (n : Nat) : (s.incFld f ix n).evOut = s.evOut := rfl
@[simp] theorem State.incFld_seOut (f : Fld) (ix : List Nat) (n : Nat) : (s.incFld f ix n).seOut = s.seOut := rfl
@[simp] theorem State.incFld_engs (f : Fld) (ix : List Nat) (n : Nat) : (s.incFld f ix n).engs = s.engs := rfl
@[simp] theorem State.incFld_nextUid (f : Fld) (ix : List Nat) (n : Nat) : (s.incFld f ix n).nextUid = s.nextUid := rfl
@[simp] theorem State.incFld_nextTag (f : Fld) (ix : List Nat) (n : Nat) : (s.incFld f ix n).nextTag = s.nextTag := rfl
@[simp] theorem State.incFld_nextWalk (f : Fld) (ix : List Nat) (n : Nat) : (s.incFld f ix n).nextWalk = s.nextWalk := rfl
@[simp] theorem State.incFld_walks (f : Fld) (ix : List Nat) (n : Nat) : (s.incFld f ix n).walks = s.walks := rfl
@[simp] theorem State.incFld_cache (f : Fld) (ix : List Nat) (n : Nat) : (s.incFld f ix n).cache = s.cache := rfl
@[simp] theorem State.incFld_bucket (f : Fld) (ix : List Nat) (n : Nat) : (s.incFld f ix n).bucket = s.bucket := rfl
@[simp] theorem State.incFld_gone (f : Fld) (ix : List Nat) (n : Nat) : (s.incFld f ix n).gone = s.gone := rfl
@[simp] theorem State.incFld_frecs (f : Fld) (ix : List Nat) (n : Nat) : (s.incFld f ix n).frecs = s.frecs := rfl
@[simp] theorem State.incFld_fqFull (f : Fld) (ix : List Nat) (n : Nat) : (s.incFld f ix n).fqFull = s.fqFull := rfl
@[simp] theorem State.incFld_drains (f : Fld) (ix : List Nat) (n : Nat) : (s.incFld f ix n).drains = s.drains := rfl
@[simp] theorem State.incFld_pcmd (f : Fld) (ix : List Nat) (n : Nat) : (s.incFld f ix n).pcmd = s.pcmd := rfl
@[simp] theorem State.incFld_gbw (f : Fld) (ix : List Nat) (n : Nat) : (s.incFld f ix n).gbw = s.gbw := rfl
@[simp] theorem State.incFld_dbw (f : Fld) (ix : List Nat) (n : Nat) : (s.incFld f ix n).dbw = s.dbw := rfl
@[simp] theorem State.incFld_trace (f : Fld) (ix : List Nat) (n : Nat) : (s.incFld f ix n).trace = s.trace := rfl
@[simp] theorem State.incFld_trHeld (f : Fld) (ix : List Nat) (n : Nat) : (s.incFld f ix n).trHeld = s.trHeld := rfl
@[simp] theorem State.incFld_cap (f : Fld) (ix : List Nat) (n : Nat) : (s.incFld f ix n).cap = s.cap := rfl
@[simp] theorem State.incFld_scmdq (f : Fld) (ix : List Nat) (n : Nat) : (s.incFld f ix n).scmdq = s.scmdq := rfl
@[simp] theorem State.incFld_free (f : Fld) (ix : List Nat) (n : Nat) : (s.incFld f ix n).free = s.free := rfl
@[simp] theorem State.incFld_lastStat (f : Fld) (ix : List Nat) (n : Nat) : (s.incFld f ix n).lastStat = s.lastStat := rfl
@[simp] theorem State.incFld_lastData (f : Fld) (ix : List Nat) (n : Nat) : (s.incFld f ix n).lastData = s.lastData := rfl

@[simp] theorem State.modClu_pending (c : Nat) (f : Cluster → Cluster) : (s.modClu c f).pending = s.pending := rfl
@[simp] theorem State.modClu_regs (c : Nat) (f : Cluster → Cluster) : (s.modClu c f).regs = s.regs := rfl
@[simp] theorem State.modClu_fuses (c : Nat) (f : Cluster → Cluster) : (s.modClu c f).fuses = s.fuses := rfl
@[simp] theorem State.modClu_fmap (c : Nat) (f : Cluster → Cluster) : (s.modClu c f).fmap = s.fmap := rfl
@[simp] theorem State.modClu_pt (c : Nat) (f : Cluster → Cluster) : (s.modClu c f).pt = s.pt := rfl
@[simp] theorem State.modClu_tnet (c : Nat) (f : Cluster → Cluster) : (s.modClu c f).tnet = s.tnet := rfl
@[simp] theorem State.modClu_evq (c : Nat) (f : Cluster → Cluster) : (s.modClu c f).evq = s.evq := rfl
@[simp] theorem State.modClu_evSeq (c : Nat) (f : Cluster → Cluster) : (s.modClu c f).evSeq = s.evSeq := rfl
@[simp] theorem State.modClu_evDrop (c : Nat) (f : Cluster → Cluster) : (s.modClu c f).evDrop = s.evDrop := rfl
@[simp] theorem State.modClu_ringLog (c : Nat) (f : Cluster → Cluster) : (s.modClu c f).ringLog = s.ringLog := rfl
@[simp] theorem State.modClu_once (c : Nat) (f : Cluster → Cluster) : (s.modClu c f).once = s.once := rfl
@[simp] theorem State.modClu_cclkBad (c : Nat) (f : Cluster → Cluster) : (s.modClu c f).cclkBad = s.cclkBad := rfl
@[simp] theorem State.modClu_rampExt (c : Nat) (f : Cluster → Cluster) : (s.modClu c f).rampExt = s.rampExt := rfl
@[simp] theorem State.modClu_out (c : Nat) (f : Cluster → Cluster) : (s.modClu c f).out = s.out := rfl
@[simp] theorem State.modClu_od (c : Nat) (f : Cluster → Cluster) : (s.modClu c f).od = s.od := rfl
@[simp] theorem State.modClu_cfgNext (c : Nat) (f : Cluster → Cluster) : (s.modClu c f).cfgNext = s.cfgNext := rfl
@[simp] theorem State.modClu_cfgLate (c : Nat) (f : Cluster → Cluster) : (s.modClu c f).cfgLate = s.cfgLate := rfl
@[simp] theorem State.modClu_land (c : Nat) (f : Cluster → Cluster) : (s.modClu c f).land = s.land := rfl
@[simp] theorem State.modClu_tide (c : Nat) (f : Cluster → Cluster) : (s.modClu c f).tide = s.tide := rfl
@[simp] theorem State.modClu_helm (c : Nat) (f : Cluster → Cluster) : (s.modClu c f).helm = s.helm := rfl
@[simp] theorem State.modClu_pow (c : Nat) (f : Cluster → Cluster) : (s.modClu c f).pow = s.pow := rfl
@[simp] theorem State.modClu_bring (c : Nat) (f : Cluster → Cluster) : (s.modClu c f).bring = s.bring := rfl
@[simp] theorem State.modClu_tap (c : Nat) (f : Cluster → Cluster) : (s.modClu c f).tap = s.tap := rfl
@[simp] theorem State.modClu_i3c (c : Nat) (f : Cluster → Cluster) : (s.modClu c f).i3c = s.i3c := rfl
@[simp] theorem State.modClu_mp (c : Nat) (f : Cluster → Cluster) : (s.modClu c f).mp = s.mp := rfl
@[simp] theorem State.modClu_pads (c : Nat) (f : Cluster → Cluster) : (s.modClu c f).pads = s.pads := rfl
@[simp] theorem State.modClu_fe (c : Nat) (f : Cluster → Cluster) : (s.modClu c f).fe = s.fe := rfl
@[simp] theorem State.modClu_coh (c : Nat) (f : Cluster → Cluster) : (s.modClu c f).coh = s.coh := rfl
@[simp] theorem State.modClu_scache (c : Nat) (f : Cluster → Cluster) : (s.modClu c f).scache = s.scache := rfl
@[simp] theorem State.modClu_ringLast (c : Nat) (f : Cluster → Cluster) : (s.modClu c f).ringLast = s.ringLast := rfl
@[simp] theorem State.modClu_ringTick (c : Nat) (f : Cluster → Cluster) : (s.modClu c f).ringTick = s.ringTick := rfl
@[simp] theorem State.modClu_tails (c : Nat) (f : Cluster → Cluster) : (s.modClu c f).tails = s.tails := rfl
@[simp] theorem State.modClu_ringErr (c : Nat) (f : Cluster → Cluster) : (s.modClu c f).ringErr = s.ringErr := rfl
@[simp] theorem State.modClu_evOut (c : Nat) (f : Cluster → Cluster) : (s.modClu c f).evOut = s.evOut := rfl
@[simp] theorem State.modClu_seOut (c : Nat) (f : Cluster → Cluster) : (s.modClu c f).seOut = s.seOut := rfl
@[simp] theorem State.modClu_engs (c : Nat) (f : Cluster → Cluster) : (s.modClu c f).engs = s.engs := rfl
@[simp] theorem State.modClu_nextUid (c : Nat) (f : Cluster → Cluster) : (s.modClu c f).nextUid = s.nextUid := rfl
@[simp] theorem State.modClu_nextTag (c : Nat) (f : Cluster → Cluster) : (s.modClu c f).nextTag = s.nextTag := rfl
@[simp] theorem State.modClu_nextWalk (c : Nat) (f : Cluster → Cluster) : (s.modClu c f).nextWalk = s.nextWalk := rfl
@[simp] theorem State.modClu_walks (c : Nat) (f : Cluster → Cluster) : (s.modClu c f).walks = s.walks := rfl
@[simp] theorem State.modClu_cache (c : Nat) (f : Cluster → Cluster) : (s.modClu c f).cache = s.cache := rfl
@[simp] theorem State.modClu_bucket (c : Nat) (f : Cluster → Cluster) : (s.modClu c f).bucket = s.bucket := rfl
@[simp] theorem State.modClu_gone (c : Nat) (f : Cluster → Cluster) : (s.modClu c f).gone = s.gone := rfl
@[simp] theorem State.modClu_frecs (c : Nat) (f : Cluster → Cluster) : (s.modClu c f).frecs = s.frecs := rfl
@[simp] theorem State.modClu_fqFull (c : Nat) (f : Cluster → Cluster) : (s.modClu c f).fqFull = s.fqFull := rfl
@[simp] theorem State.modClu_drains (c : Nat) (f : Cluster → Cluster) : (s.modClu c f).drains = s.drains := rfl
@[simp] theorem State.modClu_pcmd (c : Nat) (f : Cluster → Cluster) : (s.modClu c f).pcmd = s.pcmd := rfl
@[simp] theorem State.modClu_gbw (c : Nat) (f : Cluster → Cluster) : (s.modClu c f).gbw = s.gbw := rfl
@[simp] theorem State.modClu_dbw (c : Nat) (f : Cluster → Cluster) : (s.modClu c f).dbw = s.dbw := rfl
@[simp] theorem State.modClu_trace (c : Nat) (f : Cluster → Cluster) : (s.modClu c f).trace = s.trace := rfl
@[simp] theorem State.modClu_trHeld (c : Nat) (f : Cluster → Cluster) : (s.modClu c f).trHeld = s.trHeld := rfl
@[simp] theorem State.modClu_cap (c : Nat) (f : Cluster → Cluster) : (s.modClu c f).cap = s.cap := rfl
@[simp] theorem State.modClu_scmdq (c : Nat) (f : Cluster → Cluster) : (s.modClu c f).scmdq = s.scmdq := rfl
@[simp] theorem State.modClu_free (c : Nat) (f : Cluster → Cluster) : (s.modClu c f).free = s.free := rfl
@[simp] theorem State.modClu_lastStat (c : Nat) (f : Cluster → Cluster) : (s.modClu c f).lastStat = s.lastStat := rfl
@[simp] theorem State.modClu_lastData (c : Nat) (f : Cluster → Cluster) : (s.modClu c f).lastData = s.lastData := rfl

@[simp] theorem State.modPart_pending (p : Nat) (f : Part → Part) : (s.modPart p f).pending = s.pending := rfl
@[simp] theorem State.modPart_regs (p : Nat) (f : Part → Part) : (s.modPart p f).regs = s.regs := rfl
@[simp] theorem State.modPart_fuses (p : Nat) (f : Part → Part) : (s.modPart p f).fuses = s.fuses := rfl
@[simp] theorem State.modPart_fmap (p : Nat) (f : Part → Part) : (s.modPart p f).fmap = s.fmap := rfl
@[simp] theorem State.modPart_cl (p : Nat) (f : Part → Part) : (s.modPart p f).cl = s.cl := rfl
@[simp] theorem State.modPart_tnet (p : Nat) (f : Part → Part) : (s.modPart p f).tnet = s.tnet := rfl
@[simp] theorem State.modPart_evq (p : Nat) (f : Part → Part) : (s.modPart p f).evq = s.evq := rfl
@[simp] theorem State.modPart_evSeq (p : Nat) (f : Part → Part) : (s.modPart p f).evSeq = s.evSeq := rfl
@[simp] theorem State.modPart_evDrop (p : Nat) (f : Part → Part) : (s.modPart p f).evDrop = s.evDrop := rfl
@[simp] theorem State.modPart_ringLog (p : Nat) (f : Part → Part) : (s.modPart p f).ringLog = s.ringLog := rfl
@[simp] theorem State.modPart_once (p : Nat) (f : Part → Part) : (s.modPart p f).once = s.once := rfl
@[simp] theorem State.modPart_cclkBad (p : Nat) (f : Part → Part) : (s.modPart p f).cclkBad = s.cclkBad := rfl
@[simp] theorem State.modPart_rampExt (p : Nat) (f : Part → Part) : (s.modPart p f).rampExt = s.rampExt := rfl
@[simp] theorem State.modPart_out (p : Nat) (f : Part → Part) : (s.modPart p f).out = s.out := rfl
@[simp] theorem State.modPart_od (p : Nat) (f : Part → Part) : (s.modPart p f).od = s.od := rfl
@[simp] theorem State.modPart_cfgNext (p : Nat) (f : Part → Part) : (s.modPart p f).cfgNext = s.cfgNext := rfl
@[simp] theorem State.modPart_cfgLate (p : Nat) (f : Part → Part) : (s.modPart p f).cfgLate = s.cfgLate := rfl
@[simp] theorem State.modPart_land (p : Nat) (f : Part → Part) : (s.modPart p f).land = s.land := rfl
@[simp] theorem State.modPart_tide (p : Nat) (f : Part → Part) : (s.modPart p f).tide = s.tide := rfl
@[simp] theorem State.modPart_helm (p : Nat) (f : Part → Part) : (s.modPart p f).helm = s.helm := rfl
@[simp] theorem State.modPart_pow (p : Nat) (f : Part → Part) : (s.modPart p f).pow = s.pow := rfl
@[simp] theorem State.modPart_bring (p : Nat) (f : Part → Part) : (s.modPart p f).bring = s.bring := rfl
@[simp] theorem State.modPart_tap (p : Nat) (f : Part → Part) : (s.modPart p f).tap = s.tap := rfl
@[simp] theorem State.modPart_i3c (p : Nat) (f : Part → Part) : (s.modPart p f).i3c = s.i3c := rfl
@[simp] theorem State.modPart_mp (p : Nat) (f : Part → Part) : (s.modPart p f).mp = s.mp := rfl
@[simp] theorem State.modPart_pads (p : Nat) (f : Part → Part) : (s.modPart p f).pads = s.pads := rfl
@[simp] theorem State.modPart_fe (p : Nat) (f : Part → Part) : (s.modPart p f).fe = s.fe := rfl
@[simp] theorem State.modPart_coh (p : Nat) (f : Part → Part) : (s.modPart p f).coh = s.coh := rfl
@[simp] theorem State.modPart_scache (p : Nat) (f : Part → Part) : (s.modPart p f).scache = s.scache := rfl
@[simp] theorem State.modPart_ringLast (p : Nat) (f : Part → Part) : (s.modPart p f).ringLast = s.ringLast := rfl
@[simp] theorem State.modPart_ringTick (p : Nat) (f : Part → Part) : (s.modPart p f).ringTick = s.ringTick := rfl
@[simp] theorem State.modPart_tails (p : Nat) (f : Part → Part) : (s.modPart p f).tails = s.tails := rfl
@[simp] theorem State.modPart_ringErr (p : Nat) (f : Part → Part) : (s.modPart p f).ringErr = s.ringErr := rfl
@[simp] theorem State.modPart_evOut (p : Nat) (f : Part → Part) : (s.modPart p f).evOut = s.evOut := rfl
@[simp] theorem State.modPart_seOut (p : Nat) (f : Part → Part) : (s.modPart p f).seOut = s.seOut := rfl
@[simp] theorem State.modPart_engs (p : Nat) (f : Part → Part) : (s.modPart p f).engs = s.engs := rfl
@[simp] theorem State.modPart_nextUid (p : Nat) (f : Part → Part) : (s.modPart p f).nextUid = s.nextUid := rfl
@[simp] theorem State.modPart_nextTag (p : Nat) (f : Part → Part) : (s.modPart p f).nextTag = s.nextTag := rfl
@[simp] theorem State.modPart_nextWalk (p : Nat) (f : Part → Part) : (s.modPart p f).nextWalk = s.nextWalk := rfl
@[simp] theorem State.modPart_walks (p : Nat) (f : Part → Part) : (s.modPart p f).walks = s.walks := rfl
@[simp] theorem State.modPart_cache (p : Nat) (f : Part → Part) : (s.modPart p f).cache = s.cache := rfl
@[simp] theorem State.modPart_bucket (p : Nat) (f : Part → Part) : (s.modPart p f).bucket = s.bucket := rfl
@[simp] theorem State.modPart_gone (p : Nat) (f : Part → Part) : (s.modPart p f).gone = s.gone := rfl
@[simp] theorem State.modPart_frecs (p : Nat) (f : Part → Part) : (s.modPart p f).frecs = s.frecs := rfl
@[simp] theorem State.modPart_fqFull (p : Nat) (f : Part → Part) : (s.modPart p f).fqFull = s.fqFull := rfl
@[simp] theorem State.modPart_drains (p : Nat) (f : Part → Part) : (s.modPart p f).drains = s.drains := rfl
@[simp] theorem State.modPart_pcmd (p : Nat) (f : Part → Part) : (s.modPart p f).pcmd = s.pcmd := rfl
@[simp] theorem State.modPart_gbw (p : Nat) (f : Part → Part) : (s.modPart p f).gbw = s.gbw := rfl
@[simp] theorem State.modPart_dbw (p : Nat) (f : Part → Part) : (s.modPart p f).dbw = s.dbw := rfl
@[simp] theorem State.modPart_trace (p : Nat) (f : Part → Part) : (s.modPart p f).trace = s.trace := rfl
@[simp] theorem State.modPart_trHeld (p : Nat) (f : Part → Part) : (s.modPart p f).trHeld = s.trHeld := rfl
@[simp] theorem State.modPart_cap (p : Nat) (f : Part → Part) : (s.modPart p f).cap = s.cap := rfl
@[simp] theorem State.modPart_scmdq (p : Nat) (f : Part → Part) : (s.modPart p f).scmdq = s.scmdq := rfl
@[simp] theorem State.modPart_free (p : Nat) (f : Part → Part) : (s.modPart p f).free = s.free := rfl
@[simp] theorem State.modPart_lastStat (p : Nat) (f : Part → Part) : (s.modPart p f).lastStat = s.lastStat := rfl
@[simp] theorem State.modPart_lastData (p : Nat) (f : Part → Part) : (s.modPart p f).lastData = s.lastData := rfl

@[simp] theorem State.modFront_pending (p : Nat) (f : Fe → Fe) : (s.modFront p f).pending = s.pending := rfl
@[simp] theorem State.modFront_regs (p : Nat) (f : Fe → Fe) : (s.modFront p f).regs = s.regs := rfl
@[simp] theorem State.modFront_fuses (p : Nat) (f : Fe → Fe) : (s.modFront p f).fuses = s.fuses := rfl
@[simp] theorem State.modFront_fmap (p : Nat) (f : Fe → Fe) : (s.modFront p f).fmap = s.fmap := rfl
@[simp] theorem State.modFront_cl (p : Nat) (f : Fe → Fe) : (s.modFront p f).cl = s.cl := rfl
@[simp] theorem State.modFront_pt (p : Nat) (f : Fe → Fe) : (s.modFront p f).pt = s.pt := rfl
@[simp] theorem State.modFront_tnet (p : Nat) (f : Fe → Fe) : (s.modFront p f).tnet = s.tnet := rfl
@[simp] theorem State.modFront_evq (p : Nat) (f : Fe → Fe) : (s.modFront p f).evq = s.evq := rfl
@[simp] theorem State.modFront_evSeq (p : Nat) (f : Fe → Fe) : (s.modFront p f).evSeq = s.evSeq := rfl
@[simp] theorem State.modFront_evDrop (p : Nat) (f : Fe → Fe) : (s.modFront p f).evDrop = s.evDrop := rfl
@[simp] theorem State.modFront_ringLog (p : Nat) (f : Fe → Fe) : (s.modFront p f).ringLog = s.ringLog := rfl
@[simp] theorem State.modFront_once (p : Nat) (f : Fe → Fe) : (s.modFront p f).once = s.once := rfl
@[simp] theorem State.modFront_cclkBad (p : Nat) (f : Fe → Fe) : (s.modFront p f).cclkBad = s.cclkBad := rfl
@[simp] theorem State.modFront_rampExt (p : Nat) (f : Fe → Fe) : (s.modFront p f).rampExt = s.rampExt := rfl
@[simp] theorem State.modFront_out (p : Nat) (f : Fe → Fe) : (s.modFront p f).out = s.out := rfl
@[simp] theorem State.modFront_od (p : Nat) (f : Fe → Fe) : (s.modFront p f).od = s.od := rfl
@[simp] theorem State.modFront_cfgNext (p : Nat) (f : Fe → Fe) : (s.modFront p f).cfgNext = s.cfgNext := rfl
@[simp] theorem State.modFront_cfgLate (p : Nat) (f : Fe → Fe) : (s.modFront p f).cfgLate = s.cfgLate := rfl
@[simp] theorem State.modFront_land (p : Nat) (f : Fe → Fe) : (s.modFront p f).land = s.land := rfl
@[simp] theorem State.modFront_tide (p : Nat) (f : Fe → Fe) : (s.modFront p f).tide = s.tide := rfl
@[simp] theorem State.modFront_helm (p : Nat) (f : Fe → Fe) : (s.modFront p f).helm = s.helm := rfl
@[simp] theorem State.modFront_pow (p : Nat) (f : Fe → Fe) : (s.modFront p f).pow = s.pow := rfl
@[simp] theorem State.modFront_bring (p : Nat) (f : Fe → Fe) : (s.modFront p f).bring = s.bring := rfl
@[simp] theorem State.modFront_tap (p : Nat) (f : Fe → Fe) : (s.modFront p f).tap = s.tap := rfl
@[simp] theorem State.modFront_i3c (p : Nat) (f : Fe → Fe) : (s.modFront p f).i3c = s.i3c := rfl
@[simp] theorem State.modFront_mp (p : Nat) (f : Fe → Fe) : (s.modFront p f).mp = s.mp := rfl
@[simp] theorem State.modFront_pads (p : Nat) (f : Fe → Fe) : (s.modFront p f).pads = s.pads := rfl
@[simp] theorem State.modFront_coh (p : Nat) (f : Fe → Fe) : (s.modFront p f).coh = s.coh := rfl
@[simp] theorem State.modFront_scache (p : Nat) (f : Fe → Fe) : (s.modFront p f).scache = s.scache := rfl
@[simp] theorem State.modFront_ringLast (p : Nat) (f : Fe → Fe) : (s.modFront p f).ringLast = s.ringLast := rfl
@[simp] theorem State.modFront_ringTick (p : Nat) (f : Fe → Fe) : (s.modFront p f).ringTick = s.ringTick := rfl
@[simp] theorem State.modFront_tails (p : Nat) (f : Fe → Fe) : (s.modFront p f).tails = s.tails := rfl
@[simp] theorem State.modFront_ringErr (p : Nat) (f : Fe → Fe) : (s.modFront p f).ringErr = s.ringErr := rfl
@[simp] theorem State.modFront_evOut (p : Nat) (f : Fe → Fe) : (s.modFront p f).evOut = s.evOut := rfl
@[simp] theorem State.modFront_seOut (p : Nat) (f : Fe → Fe) : (s.modFront p f).seOut = s.seOut := rfl
@[simp] theorem State.modFront_engs (p : Nat) (f : Fe → Fe) : (s.modFront p f).engs = s.engs := rfl
@[simp] theorem State.modFront_nextUid (p : Nat) (f : Fe → Fe) : (s.modFront p f).nextUid = s.nextUid := rfl
@[simp] theorem State.modFront_nextTag (p : Nat) (f : Fe → Fe) : (s.modFront p f).nextTag = s.nextTag := rfl
@[simp] theorem State.modFront_nextWalk (p : Nat) (f : Fe → Fe) : (s.modFront p f).nextWalk = s.nextWalk := rfl
@[simp] theorem State.modFront_walks (p : Nat) (f : Fe → Fe) : (s.modFront p f).walks = s.walks := rfl
@[simp] theorem State.modFront_cache (p : Nat) (f : Fe → Fe) : (s.modFront p f).cache = s.cache := rfl
@[simp] theorem State.modFront_bucket (p : Nat) (f : Fe → Fe) : (s.modFront p f).bucket = s.bucket := rfl
@[simp] theorem State.modFront_gone (p : Nat) (f : Fe → Fe) : (s.modFront p f).gone = s.gone := rfl
@[simp] theorem State.modFront_frecs (p : Nat) (f : Fe → Fe) : (s.modFront p f).frecs = s.frecs := rfl
@[simp] theorem State.modFront_fqFull (p : Nat) (f : Fe → Fe) : (s.modFront p f).fqFull = s.fqFull := rfl
@[simp] theorem State.modFront_drains (p : Nat) (f : Fe → Fe) : (s.modFront p f).drains = s.drains := rfl
@[simp] theorem State.modFront_pcmd (p : Nat) (f : Fe → Fe) : (s.modFront p f).pcmd = s.pcmd := rfl
@[simp] theorem State.modFront_gbw (p : Nat) (f : Fe → Fe) : (s.modFront p f).gbw = s.gbw := rfl
@[simp] theorem State.modFront_dbw (p : Nat) (f : Fe → Fe) : (s.modFront p f).dbw = s.dbw := rfl
@[simp] theorem State.modFront_trace (p : Nat) (f : Fe → Fe) : (s.modFront p f).trace = s.trace := rfl
@[simp] theorem State.modFront_trHeld (p : Nat) (f : Fe → Fe) : (s.modFront p f).trHeld = s.trHeld := rfl
@[simp] theorem State.modFront_cap (p : Nat) (f : Fe → Fe) : (s.modFront p f).cap = s.cap := rfl
@[simp] theorem State.modFront_scmdq (p : Nat) (f : Fe → Fe) : (s.modFront p f).scmdq = s.scmdq := rfl
@[simp] theorem State.modFront_free (p : Nat) (f : Fe → Fe) : (s.modFront p f).free = s.free := rfl
@[simp] theorem State.modFront_lastStat (p : Nat) (f : Fe → Fe) : (s.modFront p f).lastStat = s.lastStat := rfl
@[simp] theorem State.modFront_lastData (p : Nat) (f : Fe → Fe) : (s.modFront p f).lastData = s.lastData := rfl

@[simp] theorem State.emit_pending (o : Out) : (s.emit o).pending = s.pending := rfl
@[simp] theorem State.emit_regs (o : Out) : (s.emit o).regs = s.regs := rfl
@[simp] theorem State.emit_fuses (o : Out) : (s.emit o).fuses = s.fuses := rfl
@[simp] theorem State.emit_fmap (o : Out) : (s.emit o).fmap = s.fmap := rfl
@[simp] theorem State.emit_cl (o : Out) : (s.emit o).cl = s.cl := rfl
@[simp] theorem State.emit_pt (o : Out) : (s.emit o).pt = s.pt := rfl
@[simp] theorem State.emit_tnet (o : Out) : (s.emit o).tnet = s.tnet := rfl
@[simp] theorem State.emit_evq (o : Out) : (s.emit o).evq = s.evq := rfl
@[simp] theorem State.emit_evSeq (o : Out) : (s.emit o).evSeq = s.evSeq := rfl
@[simp] theorem State.emit_evDrop (o : Out) : (s.emit o).evDrop = s.evDrop := rfl
@[simp] theorem State.emit_ringLog (o : Out) : (s.emit o).ringLog = s.ringLog := rfl
@[simp] theorem State.emit_once (o : Out) : (s.emit o).once = s.once := rfl
@[simp] theorem State.emit_cclkBad (o : Out) : (s.emit o).cclkBad = s.cclkBad := rfl
@[simp] theorem State.emit_rampExt (o : Out) : (s.emit o).rampExt = s.rampExt := rfl
@[simp] theorem State.emit_od (o : Out) : (s.emit o).od = s.od := rfl
@[simp] theorem State.emit_cfgNext (o : Out) : (s.emit o).cfgNext = s.cfgNext := rfl
@[simp] theorem State.emit_cfgLate (o : Out) : (s.emit o).cfgLate = s.cfgLate := rfl
@[simp] theorem State.emit_land (o : Out) : (s.emit o).land = s.land := rfl
@[simp] theorem State.emit_tide (o : Out) : (s.emit o).tide = s.tide := rfl
@[simp] theorem State.emit_helm (o : Out) : (s.emit o).helm = s.helm := rfl
@[simp] theorem State.emit_pow (o : Out) : (s.emit o).pow = s.pow := rfl
@[simp] theorem State.emit_bring (o : Out) : (s.emit o).bring = s.bring := rfl
@[simp] theorem State.emit_tap (o : Out) : (s.emit o).tap = s.tap := rfl
@[simp] theorem State.emit_i3c (o : Out) : (s.emit o).i3c = s.i3c := rfl
@[simp] theorem State.emit_mp (o : Out) : (s.emit o).mp = s.mp := rfl
@[simp] theorem State.emit_pads (o : Out) : (s.emit o).pads = s.pads := rfl
@[simp] theorem State.emit_fe (o : Out) : (s.emit o).fe = s.fe := rfl
@[simp] theorem State.emit_coh (o : Out) : (s.emit o).coh = s.coh := rfl
@[simp] theorem State.emit_scache (o : Out) : (s.emit o).scache = s.scache := rfl
@[simp] theorem State.emit_ringLast (o : Out) : (s.emit o).ringLast = s.ringLast := rfl
@[simp] theorem State.emit_ringTick (o : Out) : (s.emit o).ringTick = s.ringTick := rfl
@[simp] theorem State.emit_tails (o : Out) : (s.emit o).tails = s.tails := rfl
@[simp] theorem State.emit_ringErr (o : Out) : (s.emit o).ringErr = s.ringErr := rfl
@[simp] theorem State.emit_evOut (o : Out) : (s.emit o).evOut = s.evOut := rfl
@[simp] theorem State.emit_seOut (o : Out) : (s.emit o).seOut = s.seOut := rfl
@[simp] theorem State.emit_engs (o : Out) : (s.emit o).engs = s.engs := rfl
@[simp] theorem State.emit_nextUid (o : Out) : (s.emit o).nextUid = s.nextUid := rfl
@[simp] theorem State.emit_nextTag (o : Out) : (s.emit o).nextTag = s.nextTag := rfl
@[simp] theorem State.emit_nextWalk (o : Out) : (s.emit o).nextWalk = s.nextWalk := rfl
@[simp] theorem State.emit_walks (o : Out) : (s.emit o).walks = s.walks := rfl
@[simp] theorem State.emit_cache (o : Out) : (s.emit o).cache = s.cache := rfl
@[simp] theorem State.emit_bucket (o : Out) : (s.emit o).bucket = s.bucket := rfl
@[simp] theorem State.emit_gone (o : Out) : (s.emit o).gone = s.gone := rfl
@[simp] theorem State.emit_frecs (o : Out) : (s.emit o).frecs = s.frecs := rfl
@[simp] theorem State.emit_fqFull (o : Out) : (s.emit o).fqFull = s.fqFull := rfl
@[simp] theorem State.emit_drains (o : Out) : (s.emit o).drains = s.drains := rfl
@[simp] theorem State.emit_pcmd (o : Out) : (s.emit o).pcmd = s.pcmd := rfl
@[simp] theorem State.emit_gbw (o : Out) : (s.emit o).gbw = s.gbw := rfl
@[simp] theorem State.emit_dbw (o : Out) : (s.emit o).dbw = s.dbw := rfl
@[simp] theorem State.emit_trace (o : Out) : (s.emit o).trace = s.trace := rfl
@[simp] theorem State.emit_trHeld (o : Out) : (s.emit o).trHeld = s.trHeld := rfl
@[simp] theorem State.emit_cap (o : Out) : (s.emit o).cap = s.cap := rfl
@[simp] theorem State.emit_scmdq (o : Out) : (s.emit o).scmdq = s.scmdq := rfl
@[simp] theorem State.emit_free (o : Out) : (s.emit o).free = s.free := rfl
@[simp] theorem State.emit_lastStat (o : Out) : (s.emit o).lastStat = s.lastStat := rfl
@[simp] theorem State.emit_lastData (o : Out) : (s.emit o).lastData = s.lastData := rfl

@[simp] theorem State.emit_out (o : Out) : (s.emit o).out = o :: s.out := rfl

end Sys2Proof.Machine
end

