-- ==== Sys2Proof/Laws/Ops.lean ====
section
/-! SUPPORT. What the named operations over State do: registers and fields, clusters and partitions, events, tallies. -/

namespace Sys2Proof.Machine

variable (s : State)

/-! ### Registers -/

/-- A register holds the word just set. -/
theorem State.word_setWord_same (r : RegId) (ix : List Nat) (v : Nat) (h : v < 2 ^ 64) : (s.setWord r ix v).word r ix = v := by
  unfold State.setWord State.word
  simp only
  split
  · rename_i e
    split at e
    · rw [SMap.find_del_same] at e; cases e
    · rw [SMap.find_put_same] at e; cases e; exact (BitVec.toNat_ofNat ..).trans (Nat.mod_eq_of_lt h)
  · rename_i e
    split at e
    · exact (‹v = resetWord r ix›).symm
    · rw [SMap.find_put_same] at e; cases e

/-- A register at another address is left alone. -/
theorem State.word_setWord_ne (r r' : RegId) (ix ix' : List Nat) (v : Nat) (h : regAddr r' ix' ≠ regAddr r ix) :
    (s.setWord r ix v).word r' ix' = s.word r' ix' := by
  unfold State.setWord State.word
  simp only
  congr 1
  split
  · exact SMap.find_del_ne _ _ _ h
  · exact SMap.find_put_ne _ _ _ _ h

/-- The words of the register window elsewhere are left alone, listed or not. -/
theorem State.find_setWord_ne (r : RegId) (ix : List Nat) (v a : Nat) (h : a ≠ regAddr r ix) :
    SMap.find (s.setWord r ix v).regs a = SMap.find s.regs a := by
  unfold State.setWord
  simp only
  split
  · exact SMap.find_del_ne _ _ _ h
  · exact SMap.find_put_ne _ _ _ _ h

/-- Any field of the word just set, whatever stands above bit 63. -/
theorem State.bits_word_setWord (r : RegId) (ix : List Nat) (v lo w : Nat) (h : lo + w ≤ 64) :
    bits ((s.setWord r ix v).word r ix) lo w = bits v lo w := by
  unfold State.setWord State.word
  simp only
  split
  · rename_i e
    split at e
    · rw [SMap.find_del_same] at e; cases e
    · rw [SMap.find_put_same] at e; cases e; simpa using bits_mod v lo w 64 h
  · rename_i e
    split at e
    · rw [← ‹v = resetWord r ix›]
    · rw [SMap.find_put_same] at e; cases e

/-- A field just set. -/
theorem State.fld_setFld_same (f : Fld) (ix : List Nat) (v : Nat) (h : f.lo + f.w ≤ 64) :
    (s.setFld f ix v).fld f ix = v % 2 ^ f.w := by
  unfold State.setFld State.fld
  rw [State.bits_word_setWord _ _ _ _ _ _ h, bits_putBits_same]

/-- Another field of the same register is left alone. -/
theorem State.fld_setFld_reg (f g : Fld) (ix : List Nat) (v : Nat) (hr : g.reg = f.reg) (h : g.lo + g.w ≤ 64)
    (hd : g.lo + g.w ≤ f.lo ∨ f.lo + f.w ≤ g.lo) : (s.setFld f ix v).fld g ix = s.fld g ix := by
  unfold State.setFld State.fld
  rw [hr, State.bits_word_setWord _ _ _ _ _ _ h, bits_putBits_ne _ _ _ _ _ _ hd]

/-- A field of another register is left alone. -/
theorem State.fld_setFld_ne (f g : Fld) (ix ix' : List Nat) (v : Nat) (h : regAddr g.reg ix' ≠ regAddr f.reg ix) :
    (s.setFld f ix v).fld g ix' = s.fld g ix' := by
  unfold State.setFld State.fld
  rw [State.word_setWord_ne _ _ _ _ _ _ h]

/-- A counter holds its sum, or its largest value. -/
theorem State.fld_incFld_same (f : Fld) (ix : List Nat) (n : Nat) (h : f.lo + f.w ≤ 64) :
    (s.incFld f ix n).fld f ix = satAdd f.w (s.fld f ix) n := by
  unfold State.incFld
  rw [State.fld_setFld_same _ _ _ _ h, Nat.mod_eq_of_lt (satAdd_lt ..)]

theorem State.fld_incFld_ne (f g : Fld) (ix ix' : List Nat) (n : Nat) (h : regAddr g.reg ix' ≠ regAddr f.reg ix) :
    (s.incFld f ix n).fld g ix' = s.fld g ix' := State.fld_setFld_ne s f g ix ix' _ h

/-! ### Clusters, partitions, the front end -/

@[simp] theorem State.clu_modClu_same (c : Nat) (f : Cluster → Cluster) : (s.modClu c f).clu c = f (s.clu c) :=
  SMap.get_upd_same ..

theorem State.clu_modClu_ne (c d : Nat) (f : Cluster → Cluster) (h : d ≠ c) : (s.modClu c f).clu d = s.clu d :=
  SMap.get_upd_ne _ _ _ _ _ h

@[simp] theorem State.part_modPart_same (p : Nat) (f : Part → Part) : (s.modPart p f).part p = f (s.part p) :=
  SMap.get_upd_same ..

theorem State.part_modPart_ne (p q : Nat) (f : Part → Part) (h : q ≠ p) : (s.modPart p f).part q = s.part q :=
  SMap.get_upd_ne _ _ _ _ _ h

@[simp] theorem State.front_modFront_same (p : Nat) (f : Fe → Fe) : (s.modFront p f).front p = f (s.front p) :=
  SMap.get_upd_same ..

theorem State.front_modFront_ne (p q : Nat) (f : Fe → Fe) (h : q ≠ p) : (s.modFront p f).front q = s.front q :=
  SMap.get_upd_ne _ _ _ _ _ h

@[simp] theorem State.word_modClu (c : Nat) (f : Cluster → Cluster) (r : RegId) (ix : List Nat) :
    (s.modClu c f).word r ix = s.word r ix := rfl
@[simp] theorem State.word_modPart (p : Nat) (f : Part → Part) (r : RegId) (ix : List Nat) :
    (s.modPart p f).word r ix = s.word r ix := rfl
@[simp] theorem State.word_modFront (p : Nat) (f : Fe → Fe) (r : RegId) (ix : List Nat) :
    (s.modFront p f).word r ix = s.word r ix := rfl
@[simp] theorem State.word_emit (o : Out) (r : RegId) (ix : List Nat) : (s.emit o).word r ix = s.word r ix := rfl
@[simp] theorem State.clu_setFld (f : Fld) (ix : List Nat) (v c : Nat) : (s.setFld f ix v).clu c = s.clu c := rfl
@[simp] theorem State.part_setFld (f : Fld) (ix : List Nat) (v p : Nat) : (s.setFld f ix v).part p = s.part p := rfl
@[simp] theorem State.front_setFld (f : Fld) (ix : List Nat) (v p : Nat) : (s.setFld f ix v).front p = s.front p := rfl
@[simp] theorem State.clu_emit (o : Out) (c : Nat) : (s.emit o).clu c = s.clu c := rfl

/-! ### Where a command may act -/

/-- A command of the clocked die has its effect while the die runs. -/
theorem onCore_run (f : State → State) (h : s.coreOn = true) : onCore s f = .next (f s) := by simp [onCore, h]

/-- While the die is in reset or tripped, it has none. -/
theorem onCore_stop (f : State → State) (h : s.coreOn = false) : onCore s f = .next s := by simp [onCore, h]

theorem onMp_run (f : State → State) (h : s.inReset = false) : onMp s f = .next (f s) := by simp [onMp, h]

theorem onMp_stop (f : State → State) (h : s.inReset = true) : onMp s f = .next s := by simp [onMp, h]

/-! ### Events -/

/-- R306: where the queue has room, the event is its last entry. -/
theorem State.postEvent_evq (code blk part loc a0 a1 : Nat) (h : s.evq.length < 1024) :
    (s.postEvent code blk part loc a0 a1).evq = s.evq ++ [⟨s.evSeq, BitVec.ofNat 16 code, BitVec.ofNat 8 blk, BitVec.ofNat 8 part,
      BitVec.ofNat 32 s.period, BitVec.ofNat 32 loc, BitVec.ofNat 64 a0, BitVec.ofNat 64 a1⟩] := by
  unfold State.postEvent
  rw [if_neg (by omega)]
  rfl

/-- R306: where it has none, the event is dropped and counted. -/
theorem State.postEvent_full (code blk part loc a0 a1 : Nat) (h : 1024 ≤ s.evq.length) :
    (s.postEvent code blk part loc a0 a1).evq = s.evq ∧ (s.postEvent code blk part loc a0 a1).evDrop = s.evDrop + 1 := by
  unfold State.postEvent
  rw [if_pos h]
  by_cases hb : blk = 1
  · rw [if_pos hb]; exact ⟨rfl, rfl⟩
  · rw [if_neg hb]; exact ⟨rfl, rfl⟩

theorem State.postEvent_evq_length (code blk part loc a0 a1 : Nat) (h : s.evq.length ≤ 1024) :
    (s.postEvent code blk part loc a0 a1).evq.length ≤ 1024 := by
  by_cases h' : s.evq.length < 1024
  · rw [State.postEvent_evq _ _ _ _ _ _ _ h']; simp; omega
  · rw [(State.postEvent_full s code blk part loc a0 a1 (by omega)).1]; exact h

/-- R485: while the records that were not copied are fewer than the ring log holds, none is lost. -/
theorem State.postEvent_late (code blk part loc a0 a1 : Nat) (h : s.mp.rlNew < 256) :
    (s.postEvent code blk part loc a0 a1).mp.late = s.mp.late := by
  have hr : s.mp.ringIn.late = s.mp.late := by simp [Mp.ringIn, h]
  unfold State.postEvent
  by_cases hq : 1024 ≤ s.evq.length
  · rw [if_pos hq]
    by_cases hb : blk = 1
    · rw [if_pos hb]; exact hr
    · rw [if_neg hb]; rfl
  · rw [if_neg hq]; exact hr

/-- An event by which the ring log loses no record posts no other. -/
theorem State.post_eq (code blk part loc a0 a1 : Nat) (h : s.mp.rlNew < 256) :
    s.post code blk part loc a0 a1 = s.postEvent code blk part loc a0 a1 := by
  simp [State.post, State.postEvent_late s code blk part loc a0 a1 h]

theorem State.post_evq_length (code blk part loc a0 a1 : Nat) (h : s.evq.length ≤ 1024) :
    (s.post code blk part loc a0 a1).evq.length ≤ 1024 := by
  have ht := State.postEvent_evq_length s code blk part loc a0 a1 h
  unfold State.post
  dsimp only
  split
  · exact State.postEvent_evq_length _ _ _ _ _ _ _ ht
  · exact ht

end Sys2Proof.Machine
end

