-- ==== Sys2Proof/Tests/Slice0.lean ====
section
/-! SUPPORT. Tests: that ill-formed commands are refused, that the hypotheses of every statement can be met, and single
steps with results computed by hand from the spec. -/

namespace Sys2Proof.Tests

open Sys2Proof Sys2Proof.Machine Sys2Proof.Claim

-- each test is checked before the next begins: fewer threads wait at once
set_option Elab.async false
/-! ### States built from the reset state -/

/-- The state after reset. -/
def s0 : State := State.reset

/-- Change one field of a register. -/
def w (f : Fld) (ix : List Nat) (v : Nat) (s : State) : State := s.setFld f ix v

/-- Cluster 0 is in partition 0, whose voyage runs, and its pilot is in RUN. -/
def sRun : State :=
  (w F.FE_PSTAT.STATE [0] 6 (w F.CLU_STSTAT.INP [0] 1 (w F.CLU_PSTAT.STATE [0] 2 s0))).modPart 0
    (fun q => { q with live := true, cls := [0], hold := List.replicate 13 ⟨0, true, true⟩ })

/-- A stroke of schedule cycle 0 that waits with its field `todo`. -/
def ent (word todo : Nat) : Ent := ⟨0, 0, 0, word, 0, 0, 0, 1, none, [], [], 1, [], [], todo⟩

/-- That stroke is the present one of cluster 0. -/
def sEnt (e : Ent) : State := sRun.modClu 0 (fun k => { k with look := [e] })

/-- A control stroke (R162). -/
def ctl (cop : Nat) : Ent := ent (2 ^ 254 + cop * 2 ^ 248) 1

/-- A compute stroke with a row A field (R155). -/
def rowA (field : Nat) : Ent := ent (field * 2 ^ 136) 2

/-- A compute stroke with a post field (R160). -/
def post (pop : Nat) : Ent := ent (pop * 2 ^ 42) 8

/-- A descriptor of partition 0. -/
def desc (body : Bytes) : Desc := ⟨0, 0, 0, 0, body, 2, none, 0, 0, 0, false, none, 0, 0⟩

/-- Partition 0 exists and is in state `st` of R298, with a front end. -/
def sFront (st : Nat) (f : Fe → Fe) : State := (w F.FE_PSTAT.STATE [0] st s0).modFront 0 f

/-- Landing 0 in state `st` with modules 0 and 1 in state `m`. -/
def sLand (st m : Nat) (f : Land → Land) : State :=
  (w F.LND_STAT.STATE [0] st (w F.LND_MOD.MST [0, 0] m (w F.LND_MOD.MST [0, 1] m s0))).modLand 0 f

/-- The same state, where the two entries of the rights table that stand at reset are cleared. -/
def noRights (s : State) : State := { s with od := [(0x7100 * 256 + 1, leBytes 8 0), (0x7100 * 256 + 2, leBytes 8 0)] }

/-- What `exec` answers is a next state of which `P` holds. -/
def answers (i : Instr) (s : State) (P : State → Bool) : Bool :=
  match exec i s with
  | .next t => P t
  | _ => false

/-! ### Each statement's hypotheses are met: one witness a statement, its clauses together -/

theorem test_meets_StepRunsFrontCommand : s0.pending = [] := by decide

theorem test_meets_FusesStayAndSvnminNeverFalls : ∃ t, exec (.nop 0) s0 = .next t := ⟨_, rfl⟩

theorem test_meets_StepsKeepTheInvariant : Inv s0 ∧ step s0 = .next s0 :=
  ⟨⟨by decide, by decide, by decide, by decide, fun _ => by exact ⟨rfl, rfl, rfl, rfl, rfl⟩⟩, rfl⟩

theorem test_meets_SuppliesAndResetInputResetTheDie :
    ({ s0 with pads := { s0.pads with vin := false } } : State).pads.vin = false ∧ s0.pads.vin = true ∧ s0.pads.pwrgd = true ∧
      s0.pads.rstn = true ∧ s0.inReset = false ∧ ({ s0 with pads := { s0.pads with rstn := false } } : State).pads.rstn = false := by
  decide

theorem test_meets_TapInstructionsScanTheirRegisters :
    let s := w F.DBG_CTL.TAPEN [] 1 s0
    s.pads.vin = true ∧ s.pads.pwrgd = true ∧ s.fld F.DBG_CTL.TAPEN [] = 1 ∧ s.bring.doneMask = 0 ∧ s.inReset = false ∧
      s.enabled 1249 = true ∧ s.inPart 1249 = false ∧ 32 * 1023 < storeSize 4 ∧ (0 : BitVec 128).getLsbD 63 = false ∧
      s.accessStatus 0 = 0 := by decide

theorem test_meets_I3cCommandsAnswer :
    let s : State := { s0 with i3c := { s0.i3c with addr := some 8, resp := some [1] } }
    s0.inReset = false ∧ s0.i3c.addr = none ∧ s0.i3c.resp = none ∧ s.i3c.addr.isSome = true ∧ s.i3c.resp = some [1] ∧
      s.inReset = false := by decide

theorem test_meets_ControlStrokesTakeEffect : ∀ cop ∈ [0x00, 0x01, 0x09, 0x02, 0x03, 0x08, 0x05, 0x07, 0x04, 0x06],
    (sEnt (ctl cop)).coreOn = true ∧ ((sEnt (ctl cop)).clu 0).ecc = [] ∧ (sEnt (ctl cop)).ctlEnt 0 cop = some (ctl cop) := by decide

theorem test_meets_TideSelfenqLegAndEndStrokes : ∀ cop ∈ [0x0A, 0x0B, 0x0C, 0x3F],
    (sEnt (ctl cop)).coreOn = true ∧ (sEnt (ctl cop)).ctlEnt 0 cop = some (ctl cop) := by decide

theorem test_meets_PostArithmeticLands : ∀ pop ∈ [0x01, 0x08, 0x09, 0x0A, 0x0B, 0x20, 0x21, 0x22, 0x23],
    (sEnt (post pop)).coreOn = true ∧ ((sEnt (post pop)).clu 0).ecc = [] ∧ (sEnt (post pop)).postEnt 0 pop = some (post pop) := by
  decide

theorem test_meets_PostComparisonsSelectionsAndActivationsLand :
    ∀ pop ∈ [0x10, 0x11, 0x12, 0x13, 0x14, 0x15, 0x16, 0x18, 0x19, 0x1A, 0x1B, 0x28, 0x29, 0x2A, 0x2B, 0x2C],
      ((sEnt (post pop)).clu 0).ecc = [] ∧ (sEnt (post pop)).postEnt 0 pop = some (post pop) := by decide

theorem test_meets_PostReductionsEncodeAndCaptureLand : ∀ pop ∈ [0x30, 0x31, 0x32, 0x02, 0x3F],
    ((sEnt (post pop)).clu 0).ecc = [] ∧ (sEnt (post pop)).postEnt 0 pop = some (post pop) := by decide

/-- A drain to FP32 with a predicate that always holds; a spill; a fill. -/
theorem test_meets_LaneRowsDrainSpillAndFill :
    let d := rowA (2 * 2 ^ 85 + 1 * 2 ^ 53 + 16 * 2 ^ 15)
    let x := rowA (7 * 2 ^ 85)
    let f := rowA (7 * 2 ^ 85 + 2 ^ 84)
    ((sEnt d).rowEnt 0 0 2 = some d ∧ rowDrains (rowField d.word 0) 0 0 = true ∧ (fmtD (bits (rowField d.word 0) 53 4)).isMx = false) ∧
      ((sEnt x).rowEnt 0 0 7 = some x ∧ bitAt (rowField x.word 0) 84 = false) ∧
      ((sEnt f).rowEnt 0 0 7 = some f ∧ bitAt (rowField f.word 0) 84 = true ∧ ((sEnt f).clu 0).ecc = []) := by decide

theorem test_meets_AccumulateEntersTheNamedCells :
    let a := rowA (1 * 2 ^ 85 + 3 * 2 ^ 81 + 3 * 2 ^ 77)
    let b := rowA (3 * 2 ^ 85 + 3 * 2 ^ 81 + 3 * 2 ^ 77 + 16 * 2 ^ 15)
    ((sEnt a).coreOn = true ∧ (sEnt a).slicesReady 0 0 a = true ∧ rowMx (rowField a.word 0) = false ∧
      bitAt (rowField a.word 0) 47 = false ∧ (sEnt a).rowEnt 0 0 1 = some a ∧ rowDrains (rowField a.word 0) 0 0 = false) ∧
      ((sEnt b).slicesReady 0 0 b = true ∧ rowMx (rowField b.word 0) = false ∧ (sEnt b).rowEnt 0 0 3 = some b) := by decide

theorem test_meets_FmaUnitsAndSlotTransfers : (∀ op ∈ [4, 5, 6],
    (sEnt (rowA (op * 2 ^ 85))).rowEnt 0 0 op = some (rowA (op * 2 ^ 85)) ∧ ((sEnt (rowA (op * 2 ^ 85))).clu 0).ecc = []) ∧
    (let e := rowA (6 * 2 ^ 85 + 2 ^ 84)
     (sEnt e).rowEnt 0 0 6 = some e ∧ bitAt (rowField e.word 0) 84 = true) := by decide

theorem test_meets_AccumulationDependsOnlyOnTheMultiset :
    (∃ xs ys : List (Bool × List Prd), xs ≠ ys ∧ (xs.flatMap fun q => q.2.map fun p => (q.1, p)).Perm
      (ys.flatMap fun q => q.2.map fun p => (q.1, p)) ∧ (Cell.idle 0).acnt.toNat + xs.length ≤ 2 ^ 24 ∧
      (Cell.idle 0).acnt.toNat + ys.length ≤ 2 ^ 24) ∧
    2 ^ 24 < ({ Cell.idle 0 with acnt := 2 ^ 24 } : Cell).acnt.toNat + [(false, ([] : List Prd))].length :=
  ⟨⟨[(false, [])], [], by decide, .nil, by decide, by decide⟩, by decide⟩

theorem test_meets_SpecialStatesCombine : ({ Cell.idle 0 with spc := .ninf } : Cell).spc ≠ .none ∧
    ({ Cell.idle 0x3FF with spc := .ninf } : Cell).spc = ({ Cell.idle 0 with spc := .ninf } : Cell).spc := by decide

theorem test_meets_ZerosKeepTheirSign : Fmt.fp16.isInt = false ∧ Fmt.int4.isInt = true ∧
    decodeFmt .fp16 (convertVal .fp16 .rne false (.fin true 1 (-100))).1 = .fin true 0 (-24) := by decide

theorem test_meets_RegisterReadsAnswerByAddress :
    let p := w F.FLT_PREC.STATE [15] 1 s0
    s0.inReset = false ∧ s0.reaches .fw = true ∧ 8 ≤ s0.dataLimit .fw ∧ s0.addrMapped (0x02000000 + 1250 * 0x4000) = false ∧
      s0.addrMapped 0x00100000 = true ∧ ((noRights s0).rightsOf .i3c).any = false ∧ (s0.rightsOf .fw).any = true ∧
      s0.addrMapped 0xF8 = true ∧ regFind 0xF8 = none ∧ regFind (regAddr .ID_IDENT []) = some (.ID_IDENT, []) ∧
      regFind (regAddr .FLT_PREC [15]) = some (.FLT_PREC, [15]) ∧ bits (p.word .FLT_PREC [15]) 61 3 ≠ 0 := by decide

theorem test_meets_RegisterWritesGoFieldByField :
    s0.inReset = false ∧ RegId.PWR_CTL ∉ ownRuleRegs ∧ regFind (regAddr .PWR_CTL []) = some (.PWR_CTL, []) ∧
      s0.accessStatus (regAddr .PWR_CTL []) = 0 ∧ s0.reaches .i3c = true ∧ 8 ≤ s0.dataLimit .i3c ∧
      regFind (regAddr .CLU_BERTH [1249, 127]) = some (.CLU_BERTH, [1249, 127]) ∧
      s0.accessStatus (regAddr .CLU_BERTH [1249, 127]) = 0 := by decide

/-- The MP runs firmware. -/
def sMp : State := w F.MGT_STAT.MPST [] 1 s0

theorem test_meets_DictionaryReadsAnswer :
    sMp.inReset = false ∧ sMp.reaches .i3c = true ∧ sMp.mpst = 1 ∧ sMp.fld F.MGT_STAT.SHED [] = 0 ∧ 63 + sMp.mp.mbox.length < 64 ∧
      odEnt 0xFFFF 0xFF = none ∧ (odEnt 0x1000 1).isSome = true ∧ sMp.holds .i3c (odRights 0x1000 1).1 0 = true ∧
      (odEnt 0x4200 1).isSome = true ∧ (noRights sMp).holds .i3c (odRights 0x4200 1).1 0 = false := by decide

theorem test_meets_DictionaryWritesAreJudgedInOrder :
    let sealed := w F.ID_SEC.SEALED [] 1 sMp
    let tides : State := { sMp with tide := { sMp.tide with begun := true } }
    let staged : State := { sMp with mp := { sMp.mp with staging := [⟨.i3c, 0x1102, 1, []⟩] } }
    (sMp.mpst = 1 ∧ odEnt 0 0 = none ∧ sMp.dataLimit .fw < 241) ∧ (noRights sMp).holds .i3c (odRights 0x2010 1).2 0 = false ∧
      sMp.holds .fw (odRights 0x2010 1).2 0 = true ∧ (odEnt 0x1000 1).map (·.acc) = some accConst ∧
      (odEnt 0x2010 1).map (·.acc) = some accRws ∧ sealed.sealed = true ∧ sMp.sealed = false ∧
      (odEnt 0x2010 1).map (fun e => tyLen e.ty) = some (some 4) ∧ cfgRange 0x2010 1 50000 = true ∧ tides.tst < 2 ∧
      (odEnt 0x1102 1).map (fun e => tyLen e.ty) = some none ∧ sMp.stagingOf 0x1102 1 = none ∧
      (staged.stagingOf 0x1102 1).any (fun x => !sameRequester x.q .fw) = true := by decide

theorem test_meets_RequestsArriveAndStagingsEnd :
    let s : State := { s0 with
      i3c := { s0.i3c with addr := some 8 }
      mp := { s0.mp with staging := [⟨.i3c, 0x1102, 1, []⟩] } }
    let block := fun (op : Nat) => leBytes 16 op
    s.inReset = false ∧ s.i3c.addr.isSome = true ∧ blockBad [] = true ∧
      (∀ op ∈ [0, 1, 2, 3, 4], blockBad (block op) = false ∧ leAt (block op) 0 1 = op ∧ leAt (block op) 4 4 < 2 ^ 24) ∧
      s.reaches .fw = true ∧ (s.stagingOf 0x1102 1).isSome = true ∧ s.evq.length < 1024 := by decide

/-- Berth `h` of cluster 0 is resident, of one granule, and the cluster in partition 0. -/
def resident (h : Nat) (s : State) : State :=
  w F.CLU_STSTAT.INP [0] 1 (w F.CLU_BERTH.VAL [0, h] 1 (w F.CLU_BERTH.RES [0, h] 1 (w F.CLU_BERTH.LEN [0, h] 1 s)))

theorem test_meets_WindowsOpenCloseAndTakeCredit :
    let s := resident 127 s0
    let v : Nat := 2 ^ 63 + 2 ^ 60 + 127 * 2 ^ 52 + 2 ^ 27
    let o := w F.CLU_GWCFG.OPEN [0, 31] 1 s
    let fenced := w F.CLU_CSITE.FEN [0] 1 (w F.CLU_STSTAT.INP [0] 1 s0)
    (s.coreOn = true ∧ s.enabled 0 = true ∧ s.enabled 1249 = true ∧ s.windowRight .fw 0 = true) ∧
      ((BitVec.ofNat 64 v).getLsbD 63 = true ∧ s.fld F.CLU_GWCFG.OPEN [0, 31] = 0 ∧ s.openRefused 0 31 v = false) ∧
      s.openRefused 0 31 (v + 2 ^ 27) = true ∧ (o.fld F.CLU_GWCFG.OPEN [0, 31] = 1 ∧ v ≠ o.word .CLU_GWCFG [0, 31]) ∧
      (0 : W64).getLsbD 63 = false ∧ (s.rightsOf .fw).dadmin = true ∧ s0.inPart 0 = false ∧ fenced.inPart 0 = true ∧
      fenced.fld F.CLU_CSITE.FEN [0] = 1 ∧ (w F.CLK_CCLK.CUR [] 2000000 s0).fld F.CLK_CCLK.CUR [] ≤ 2000000 := by decide

theorem test_meets_RemoteWritesLandExactlyInTheirBytes :
    let s := resident 0 (w F.CLU_GWCFG.OPEN [0, 31] 1 (w F.CLU_GWCFG.CHAIN [0, 31] 1
      (w F.CLU_GWCFG.LEN [0, 31] 1 (w F.CLU_GWCFG.SRCP [0, 31] 0x1F (w F.CLU_GWCRD.CRD [0, 31] 1 s0)))))
    let x : RemoteWrite := ⟨0, 0, 56, leBytes 8 1, .chain, 0, 0, 0⟩
    let g := w F.CLU_STSTAT.INP [0] 1 (w F.CHN_GWCFG.MODE [0, 1] 1 s0)
    let used := fun (n : Nat) (s : State) => (s.fld F.CHN_GWPTR.WPTR [0, 1] + 1024 - s.fld F.CHN_GWPTR.CPTR [0, 1]) % 1024 = n
    (s.coreOn = true ∧ s.enabled 0 = true ∧ s.judgeWrite x = .inl 31 ∧ s.berthBase 0 0 + 56 + 8 ≤ 2 ^ 18) ∧
      s0.judgeWrite x = .inr 1 ∧ s.judgeWrite { x with off := 60 } = .inr 6 ∧ s0.inPart 0 = false ∧
      (g.inPart 0 = true ∧ (0 : Nat) = g.partOf 0 ∧ (0 : BitVec 16).toNat = g.fld F.CLU_STSTAT.CGEN [0] ∧
        g.fld F.CHN_GWCFG.MODE [0, 1] = 1) ∧
      used 512 (w F.CHN_GWPTR.WPTR [0, 1] 512 g) ∧ used 511 (w F.CHN_GWPTR.WPTR [0, 1] 511 g) := by decide

theorem test_meets_TalliesSaturateAndNeverWrap :
    let s := fun (n : Nat) => w F.TDE_TCFG.ASG [16383] 1 (w F.TDE_TAL.VALUE [16383] n s0)
    (s 0).fld F.TDE_TCFG.ASG [16383] = 1 ∧ (16777215 : Int) < ((s 16777215).fld F.TDE_TAL.VALUE [16383] : Int) + 1 ∧
      ((s 0).fld F.TDE_TAL.VALUE [16383] : Int) - 1 < 0 ∧ (s 0).fld F.TDE_TAL.VALUE [16383] = 0 ∧
      ((s 16777214).fld F.TDE_TAL.VALUE [16383] : Int) + 1 ≤ 16777215 := by decide

theorem test_meets_TallyRowsChangeTheirTally :
    let e : Ent := { ent 0 1 with bind := some (true, 5) }
    let s := w F.TDE_TCFG.ASG [5] 1 (sEnt e)
    s.coreOn = true ∧ s.headEnt 0 = some e ∧ strokeKind e.word = 0 ∧ bitAt e.todo 0 = true ∧ s.fld F.TDE_TCFG.ASG [5] = 1 ∧
      (s.part (s.fld F.TDE_TCFG.OWNER [5])).live = true ∧ (s.rightsOf .fw).dadmin = true ∧ s.tide.waits = [] ∧
      s0.fld F.TDE_TCFG.ASG [5] = 0 := by decide

theorem test_meets_ZeroingScrubbingAndWritebackKeepOtherBytes :
    let z := s0.modClu 0 (fun k => { k with zr := [⟨0, 4, 4, [], some 127⟩, ⟨0, 4, 6, [], none⟩] })
    let b := s0.modClu 0 (fun k => { k with wb := [(1, 3)], ecc := [(2 ^ 20 + 12, 1)] })
    z.coreOn = true ∧ z.inPart 0 = false ∧ (z.clu 0).leaving = false ∧ (∀ r ∈ (z.clu 0).zr, ∀ h ∈ r.berth, h < 128) ∧
      s0.fld F.CLU_SCRUB.EN [1249] = 1 ∧ s0.enabled 1249 = true ∧ (s0.clu 1249).ecc = [] ∧ (b.clu 0).wb = [(1, 3)] ∧
      (b.clu 0).eccIn 1 96 128 = ((b.clu 0).eccIn 1 96 128).filter (fun e => e.2 == 1) := by decide

theorem test_meets_StrokesDecodeAheadOfIssue :
    let at_ := fun (pc : Nat) => sRun.modClu 0 (fun k => { k with dec := { k.dec with pc := pc, cyc := 16 } })
    let late := (sRun.modPart 0 (fun q => { q with scyc := 1 })).modClu 0 (fun k => { k with snap := some ⟨0, 0, 0, [], [], []⟩ })
    sRun.coreOn = true ∧ sRun.running 0 = true ∧ (sRun.clu 0).ecc = [] ∧ ((at_ 0).clu 0).dec.ended = false ∧
      ((at_ 0).clu 0).dec.fault = none ∧ ((at_ 0).clu 0).dec.cyc ≤ (at_ 0).scycOf 0 + 16 ∧ 1023 < ((at_ 1024).clu 0).dec.pc ∧
      15 ∉ (sRun.clu 0).fbanks ∧ 15 ∉ sRun.busyBanks 0 0 ∧ (late.part 0).live = true ∧ (late.part 0).stopAt = none ∧
      (late.part 0).cls = [0] ∧ (late.clu 0).snap.isSome = true ∧
      (w F.CLU_PLEGMAX.LMAX [0] 0 late).fld F.CLU_PLEGMAX.LMAX [0] < (late.part 0).scyc - 0 ∧ late.pilot 0 ≠ 5 := by decide

theorem test_meets_HeldCyclesCountAndKeepTheSchedule :
    let s := sRun.modPart 0 (fun q => { q with hold := ⟨1, true, true⟩ :: List.replicate 12 ⟨0, true, true⟩ })
    s.coreOn = true ∧ s.voyaging 0 = true ∧ (s.part 0).hold = ⟨1, true, true⟩ :: List.replicate 12 ⟨0, true, true⟩ ∧
      (∀ x ∈ (s.part 0).hold, x.exam = true ∧ x.dec = true) ∧ (s.part 0).cls.Nodup ∧ (∀ c ∈ (s.part 0).cls, c < 1250) ∧
      s.tnet = [] ∧ s.tide.waits = [] ∧ sRun.voyaging 0 = true ∧ (sRun.part 0).hold.length = 13 ∧
      (let d := sRun.modClu 0 (fun k => { k with dec := { k.dec with cyc := 40 } })
       d.decodedTo (d.part 0) (d.part 0).scyc = true) := by decide

theorem test_meets_UnheldCyclesAdvanceTheScheduleByOne :
    let s := (sEnt (ent 0 0)).modPart 0 (fun q => { q with hold := List.replicate 13 ⟨0, true, true⟩ })
    s.coreOn = true ∧ s.voyaging 0 = true ∧ (∀ x ∈ (s.part 0).hold, x.exam = true ∧ x.dec = true ∧ x.causes = 0) ∧
      (s.part 0).cls.Nodup ∧ (∀ c ∈ (s.part 0).cls, c < 1250 ∧ (s.clu c).ecc = [] ∧ s.cycleDone c 0 = true ∧
        (s.clu c).dec.fault = none ∧ (s.clu c).links = []) ∧ (s.part 0).stopAt = none ∧ s.tide.waits = [] := by decide

/-- The COH window lies in a range whose landing carries COH. -/
def sCoh : State :=
  w F.LND_STAT.STATE [0] 2 (w F.LND_STAT.CLS [0] 0x3F (w F.CHT_PMAP.VAL [0] 1 s0))

theorem test_meets_CoherenceMessagesMoveTheirLine :
    let s := fun (i st : Nat) => { sCoh with coh := [(i, ⟨List.replicate 64 0, st, false⟩)] }
    let r := w F.FE_RING_CFG.SELF [63] 1 (s 63 1)
    let e := w F.FE_RING_CFG.EN [63] 1 s0
    s0.coreOn = true ∧ (s 63 1).home = some 0 ∧ (s 63 1).coh.Pairwise (fun a b => a.1 < b.1) ∧ ((s 255 4).line 255).st ∈ [2, 4] ∧ ((s 63 1).line 63).st = 1 ∧
      r.fld F.FE_RING_CFG.SELF [63] = 1 ∧ (s 63 1).fld F.FE_RING_CFG.SELF [63] = 0 ∧ (s 63 1).fld F.FE_RING_CFG.EN [63] = 0 ∧
      ((s 64 3).line 64).st = 3 ∧ ((s 64 5).line 64).st = 5 ∧ ((s 64 5).line 64).dirty = false ∧ isFw .fw = true ∧
      e.fld F.FE_RING_CFG.EN [63] = 1 ∧ s0.fld F.FE_RING_CFG.EN [63] = 0 := by decide

theorem test_meets_EventsQueueAppendAndAreLostInOrder :
    let e : Event := ⟨0, 0, 0, 0, 0, 0, 0, 0⟩
    let full : State := { s0 with evq := List.replicate 1024 e }
    let one : State := { w F.FE_CTL.EN [] 1 s0 with evq := [e], evDrop := 1 }
    1024 ≤ full.evq.length ∧ s0.evq.length < 1024 ∧ s0.coreOn = true ∧ s0.fld F.FE_CTL.EN [] = 0 ∧ one.fld F.FE_CTL.EN [] = 1 ∧
      one.evq = [e] ∧ 0 < one.evDrop ∧ s0.evDrop = 0 :=
  ⟨(List.length_replicate ..).ge, by decide⟩

/-! ### The clauses for commands that do nothing, and for every way a command is turned away -/

theorem test_turned_away_EveryCommandAnswersAndKeepsTheQueue :
    ({ s0 with pads := { s0.pads with rstn := false } } : State).inReset = true ∧ actsInReset (.nop 0) = false ∧
      (w F.PWR_TSTAT.TRIP [] 1 s0).coreOn = false ∧ actsUnclocked (.nop 0) = false := by decide

theorem test_turned_away_SuppliesAndTap :
    let low : State := { s0 with pads := { s0.pads with pwrgd := false } }
    let rst : State := { w F.DBG_CTL.TAPEN [] 1 s0 with pads := { s0.pads with rstn := false } }
    (low.pads.rstn = true ∧ low.inReset = true ∧ low.pads.pwrgd = false ∧ (low.pads.vin && low.pads.pwrgd) = false) ∧
      (s0.pads.vin = true ∧ s0.pads.pwrgd = true ∧ (w F.DBG_CTL.TAPEN [] 0 s0).fld F.DBG_CTL.TAPEN [] = 0) ∧
      (rst.pads.vin = true ∧ rst.pads.pwrgd = true ∧ rst.fld F.DBG_CTL.TAPEN [] = 1 ∧ rst.inReset = true) ∧
      ({ rst with bring := { rst.bring with doneMask := 2 } } : State).bring.doneMask ≠ 0 := by
  decide

theorem test_turned_away_Strokes :
    (∀ cop ∈ [0, 1, 2, 3, 4, 5, 6, 7, 8, 9, 0xA, 0xB, 0xC, 0x3F], s0.ctlEnt 0 cop = none) ∧
      (∀ pop < 64, s0.postEnt 0 pop = none) ∧ (∀ op ∈ [1, 2, 3, 4, 5, 6, 7], s0.rowEnt 0 0 op = none) := by decide

/-- A drain whose predicate does not hold; an MX drain of both rows that one of them has still to carry out alone, and that
both have; a fill as a spill; a slot store as a slot load. -/
theorem test_more_LaneRowsDrainSpillAndFill :
    let no := rowA (2 * 2 ^ 85)
    let mx := fun (todo : Nat) => ent ((2 * 2 ^ 85 + 10 * 2 ^ 53 + 16 * 2 ^ 15) * (2 ^ 136 + 2 ^ 48)) todo
    ((sEnt no).rowEnt 0 0 2 = some no ∧ rowDrains (rowField no.word 0) 0 0 = false) ∧
      (∀ todo ∈ [2, 6], (sEnt (mx todo)).rowEnt 0 0 2 = some (mx todo) ∧ rowDrains (rowField (mx todo).word 0) 0 0 = true ∧
        (fmtD (bits (rowField (mx todo).word 0) 53 4)).isMx = true) ∧
      (bitAt (mx 6).todo 1 = true ∧ bitAt (mx 6).todo 2 = true ∧ bitAt (mx 2).todo 2 = false) ∧
      (let e := rowA (6 * 2 ^ 85)
       (sEnt e).rowEnt 0 0 6 = some e ∧ bitAt (rowField e.word 0) 84 = false ∧ ((sEnt e).clu 0).ecc = []) := by decide

/-- An accumulate whose B slices have not come; one of two MX operands at the end of its block, and within it; one with a
twin; a lane capture. -/
theorem test_more_AccumulateEntersTheNamedCells :
    let a := fun (x : Nat) => rowA (1 * 2 ^ 85 + x)
    let cap := w F.DBG_CAP.ARM [] 1 (w F.DBG_TRCFG.ELANE [] 1 (w F.DBG_CTL.TREN [] 1 (sEnt (a 0))))
    (let e := a (16 * 2 ^ 30)
     (sEnt e).rowEnt 0 0 1 = some e ∧ (sEnt e).slicesReady 0 0 e = false) ∧
      (let e := rowA (3 * 2 ^ 85 + 16 * 2 ^ 30)
       (sEnt e).rowEnt 0 0 3 = some e ∧ (sEnt e).slicesReady 0 0 e = false) ∧
      (∀ b9 ∈ [0, 16], let e := a (10 * 2 ^ 81 + 10 * 2 ^ 77 + b9 * 2 ^ 20 + 2 ^ 47)
        (sEnt e).rowEnt 0 0 1 = some e ∧ (sEnt e).slicesReady 0 0 e = true ∧ rowMx (rowField e.word 0) = true ∧
          predTrue (bits (rowField e.word 0) 20 5) 0 0 = decide (b9 = 16) ∧ bitAt (rowField e.word 0) 47 = true) ∧
      (sEnt (a 0)).capturing 0 0 0 = false ∧ cap.capturing 0 0 0 = true := by decide

theorem test_more_RegisterReadsAndWrites :
    let t := Requester.torec 0 0 0 0
    ({ s0 with pads := { s0.pads with rstn := false } } : State).inReset = true ∧ s0.reaches t = false ∧
      (4 % 8 ≠ 0 ∧ 248 % 8 = 0 ∧ s0.dataLimit .fw < 248) ∧
      ((leBytes 4 0).length % 8 ≠ 0 ∧ s0.dataLimit .fw < (leBytes 248 0).length) := by decide +kernel

/-- The MP swaps its image, with and without shedding; the ring log over I3C. -/
theorem test_more_DictionaryReadsAnswer :
    let sw := w F.MGT_STAT.MPST [] 2 s0
    let sh := w F.MGT_STAT.SHED [] 1 sMp
    (sh.bit F.MGT_STAT.SHED [] = true ∧ ringLogRead .fw 0x4200 1 = false ∧ sMp.bit F.MGT_STAT.SHED [] = false) ∧
      64 ≤ 64 + sMp.mp.mbox.length ∧ (sw.bit F.MGT_STAT.SHED [] = false ∧ 2 ≤ sw.mpst ∧ 63 + sw.mp.mbox.length < 64) ∧
      (ringLogRead .i3c 0x6000 4 = true ∧ sw.holds .i3c 1 0 = true ∧ (noRights sw).holds .i3c 1 0 = false) ∧
      (odEnt 0x1200 5).isSome = true := by decide

theorem test_more_RequestsArriveAndStagingsEnd :
    let s : State := { s0 with i3c := { s0.i3c with addr := some 8 } }
    s.i3c.addr.isSome = true ∧ s0.i3c.addr = none ∧ s0.reaches (.torec 0 0 0 0) = false ∧ blockBad (leBytes 16 0) = false ∧
      s0.stagingOf 0 0 = none ∧ s0.mp.rlNew < 256 ∧ leAt (leBytes 16 (2 + 2 ^ 56)) 4 4 = 2 ^ 24 ∧
      blockBad (leBytes 16 (2 + 2 ^ 56)) = false ∧ leAt (leBytes 16 (2 + 2 ^ 56)) 0 1 = 2 := by decide

theorem test_more_WindowsOpenCloseAndTakeCredit :
    let f : State := resident 127 s0
    s0.enabled 1250 = false ∧ (noRights s0).windowRight .i3c 0 = false ∧ ((noRights s0).rightsOf .i3c).dadmin = false ∧
      f.inPart 0 = true ∧ f.bit F.CLU_CSITE.FEN [0] = false ∧ (BitVec.ofNat 64 (2 ^ 63)).getLsbD 63 = true := by decide

/-- A remote write that is neither a chain write nor one whose bank is idle; a landing buffer's tally that admits its
partition, which sails; a tally that admits none. -/
theorem test_more_RemoteWritesLandExactlyInTheirBytes :
    let busy := (resident 0 sRun).modClu 0 (fun k => { k with ebanks := (List.range 16).map (fun b => (0, b)) })
    let g := w F.CLU_STSTAT.INP [0] 1 (w F.CHN_GWCFG.MODE [0, 1] 1 sRun)
    let t := w F.TDE_TCFG.ASG [0] 1 (w F.TDE_TAL.VALUE [0] 0 g)
    s0.enabled 1250 = false ∧ busy.banksIdle 0 0 0 8 = false ∧ WClass.ferry ≠ .chain ∧
      (t.tallyAdmits 0 0 0 none = true ∧ t.voyaging (t.fld F.TDE_TCFG.OWNER [0]) = true) ∧ g.tallyAdmits 0 0 0 none = false := by
  decide

theorem test_more_TallyRowsChangeTheirTally :
    let e : Ent := { ent 0 1 with bind := some (true, 5) }
    let s := w F.TDE_TCFG.ASG [5] 1 (sEnt e)
    let u := sEnt (ent 0 1)
    s0.headEnt 0 = none ∧ ((sEnt (ent 0 0)).headEnt 0 = some (ent 0 0) ∧ bitAt (ent 0 0).todo 0 = false) ∧
      (u.headEnt 0 = some (ent 0 1) ∧ (ent 0 1).bind = none) ∧
      (s.fld F.TDE_TCFG.ASG [5] = 1 ∧ s.voyaging (s.fld F.TDE_TCFG.OWNER [5]) = true) ∧
      (s.modPart 0 (fun q => { q with live := false })).voyaging 0 = false ∧ ((noRights s0).rightsOf .i3c).dadmin = false ∧
      (s0.part (s0.fld F.TDE_TCFG.OWNER [16383])).live = false := by decide

theorem test_more_ZeroingScrubbingAndWritebackKeepOtherBytes :
    let z := s0.modClu 0 (fun k => { k with zr := [⟨0, 4, 4, [], none⟩], leaving := true })
    let b := fun (m : Nat) => sRun.modClu 0 (fun k => { k with
      wb := [(1, 3)], ecc := [(2 ^ 20 + 12, 2)], ebanks := (List.range m).map (fun b => (1, b)) })
    let y := resident 0 (w F.CLU_BERTH.STORE [0, 0] 1 (b 0))
    (z.inPart 0 = false ∧ (z.clu 0).leaving = true ∧ (z.clu 0).zr.filter (fun r => !decide (r.hi ≤ r.lo)) = []) ∧
      ((s0.clu 0).zr = [] ∧ (s0.clu 0).wb = []) ∧ ((w F.CLU_SCRUB.EN [0] 0 s0).fld F.CLU_SCRUB.EN [0] = 0) ∧
      ((b 16).banksIdle 0 1 96 32 = false ∧ (b 0).banksIdle 0 1 96 32 = true ∧ ∀ e ∈ ((b 0).clu 0).ecc, e.2 = 2) ∧
      0 < (s0.clu 0).scrub.length ∧ y.berthAt 0 1 96 = none ∧
      (w F.CLU_BERTH.LEN [0, 0] 4 y).berthAt 0 1 96 = some 0 := by decide

/-- Fetches of the B feeders in a held ccy and in one that is not; what is refused; a fault of the instruction store. -/
theorem test_more_StrokesDecodeAheadOfIssue :
    let held := sRun.modPart 0 (fun q => { q with hold := ⟨1, true, true⟩ :: List.replicate 12 ⟨0, true, true⟩ })
    let used := sRun.modClu 0 (fun k => { k with fbanks := [15] })
    let done := sRun.modClu 0 (fun k => { k with dec := { k.dec with ended := true } })
    s0.running 0 = false ∧ ((done.clu 0).dec.ended = true) ∧ (15 ∈ (used.clu 0).fbanks) ∧
      ((match (held.part (held.partOf 0)).hold with | h :: _ => h.causes != 0 | [] => false) = true) ∧
      (s0.part 0).live = false ∧ (sRun.part 0).stopAt = none := by decide

theorem test_more_HeldAndUnheldCycles :
    let s := sRun.modPart 0 (fun q => { q with hold := ⟨1, true, true⟩ :: List.replicate 12 ⟨0, true, true⟩ })
    let stop := sRun.modPart 0 (fun q => { q with stopAt := some (0, endStatus 0x14) })
    let todo := sEnt (ent 0 1)
    let fl := (sRun.modClu 0 (fun k => { k with look := [ent 0 0] }))
    (s0.part 0).live = false ∧ s0.voyaging 0 = false ∧ (s.part 0).recDue = false ∧ (s.clu 0).elw = [] ∧
      ((stop.part 0).stopAt = some (0, endStatus 0x14) ∧ 0 ≤ (stop.part 0).scyc ∧ (stop.front 0).resetting = false ∧
        (stop.part 0).recDue = false) ∧ todo.cycleDone 0 0 = false ∧ fl.entAt 0 0 = some (ent 0 0) := by decide

/-- A manifest of kind `k`, with `f` its bytes from 2 to 0x7B, and its check right. -/
def man (k : Nat) (f : Bytes → Bytes) : Bytes :=
  let b := f (overwrite (List.replicate 124 0) 0 ([1] ++ leBytes 1 k))
  b ++ leBytes 4 (crc32 b)

theorem test_meets_ManifestsAreFetchedAndChecked :
    let ring := { w F.FE_RING_CFG.EN [63] 1 (w F.FE_CTL.EN [] 1 (sFront 1 id)) with tails := [(63, 1)] }
    let chk := fun (m : Bytes) (g : Fe → Fe) => sFront 3 (fun f => g { f with man := m, w := 1, h := 1 })
    let voy := fun (h : Byte) => man 1 (fun b => overwrite (overwrite b 6 [1, h]) 0x52 [1])
    let ok := fun (s : State) => s.fld F.FE_PSTAT.STATE [0] = 3 ∧ (s.front 0).parked = none ∧ (s.front 0).gather = false ∧
      crc32 (slice (s.front 0).man 0 0x7C) = leAt (s.front 0).man 0x7C 4
    (s0.coreOn = true ∧ ring.fld F.FE_CTL.EN [] = 1 ∧ ring.fld F.FE_PSTAT.STATE [0] = 1 ∧ (ring.front 0).halt = false ∧
        (ring.front 0).dissolving = false ∧ ring.pickRing 0 = some 63) ∧
      crc32 (slice ((chk [1] id).front 0).man 0 0x7C) ≠ leAt ((chk [1] id).front 0).man 0x7C 4 ∧
      (ok (chk (man 9 id) id) ∧ (chk (man 9 id) id).manFormat 0 (man 9 id) = false) ∧
      (ok (chk (man 0 id) id) ∧ (chk (man 0 id) id).manFormat 0 (man 0 id) = true ∧ manKind (man 0 id) = 0) ∧
      (let v := voy 2
       ok (chk v id) ∧ (chk v id).manFormat 0 v = true ∧ manKind v = 1 ∧ ((chk v id).front 0).priv = false ∧ leAt v 7 1 ≠ 1) ∧
      (let v := voy 1
       ok (chk v id) ∧ (chk v id).manFormat 0 v = true ∧ leAt v 6 1 = 1 ∧ leAt v 7 1 = 1 ∧
        (chk v id).fld F.TDE_PRANGE.CNT [0] < leAt v 0x52 2) ∧
      (let s := chk (voy 1) (fun f => { f with waiting := true, priv := true })
       (s.front 0).waiting = true ∧ (s.front 0).priv = true ∧ (s.part 0).cls = [] ∧ s.findRect 1 1 = some (0, 0)) ∧
      (let s := chk (man 1 (fun b => overwrite b 0x3E [1])) (fun f => { f with gather := true, gq := [(0, List.replicate 32 0xFF)] })
       (s.front 0).gather = true ∧ (∀ q ∈ (s.front 0).gq, streamPos q.2 + manAdv (s.front 0).man ≤ streamLimit q.2) ∧
        0 < manNstrm (s.front 0).man ∧ manNstrm (s.front 0).man ≤ (s.front 0).gq.length) := by decide +kernel

theorem test_meets_VoyagesLoadStartAndEnd :
    let l := w F.CLU_STSTAT.INP [1249] 1 (sFront 4 (fun f => { f with loading := [(1249, 127, 0)] }))
    let v := sFront 4 (fun f => { f with man := [1, 1], opening := true })
    let r := sFront 5 (fun f => { f with w := 2, h := 2, x0 := 48, y0 := 23 })
    let a := w F.CLU_PSTAT.STATE [0] 5 sRun
    let d := sFront 7 (fun f => { f with record := some [] })
    (s0.coreOn = true ∧ l.partOf 1249 = 0 ∧ l.inPart 1249 = true ∧ l.fld F.FE_PSTAT.STATE [0] = 4 ∧
        (l.front 0).loading.find? (fun x => x.1 == 1249 && x.2.1 == 127) = some (1249, 127, 0) ∧ l.loadLeft 0 1249 127 = false ∧
        (l.front 0).toPlace = []) ∧
      (let s := sFront 4 id
       s.fld F.FE_PSTAT.STATE [0] = 4 ∧ (s.front 0).toPlace = [] ∧ (s.front 0).loading = [] ∧ manKind (s.front 0).man ≠ 1) ∧
      (manKind (v.front 0).man = 1 ∧ (v.front 0).opening = true ∧ v.preLeft 0 = false) ∧
      (r.fld F.FE_PSTAT.STATE [0] = 5 ∧ r.fld F.TDE_TSTAT.STATE [] = 0 ∧ r.droopHolds 0 = false ∧ (r.members 0).isEmpty = true ∧
        (r.dirClusters 0).Nodup ∧ ∀ c ∈ r.dirClusters 0, c < 1250) ∧
      (a.fld F.FE_PSTAT.STATE [0] = 6 ∧ a.allEnded 0 = true) ∧ (d.front 0).record = some [] := by decide +kernel

/-- The body of a fill of 8 bytes at offset 0 of berth 0 of cluster 0 (R319), with its check right. -/
def fillBody : Bytes :=
  let b := overwrite (overwrite (List.replicate 60 0) 0 [1, 2, 3, 1]) 24 [8]
  b ++ leBytes 4 (crc32 b)

theorem test_meets_DescriptorsAndSelfEnqueuesAreTaken :
    let s := (sFront 4 (fun f => { f with fetch := [(2, 64, 128)] })).modPart 0 (fun q => { q with cls := [0] })
    let d : Desc := ⟨0, 0, 0, 128, slice fillBody 0 64, 2, none, 64, 0, 0, false, none, 0, 0⟩
    let q := (sFront 6 (fun f => { f with man := overwrite (List.replicate 128 0) 0x3A [1] })).modPart 0 (fun k =>
      { k with selfq := [(0, 0, 0, 0, 0)] })
    let r := w F.FE_RING_CFG.EN [63] 1 (w F.FE_RING_CFG.SELF [63] 1 (w F.FE_PCFG.SEMAX [0] 1 (w F.FE_PCFG.SEDEPTH [0] 1 q)))
    (s.coreOn = true ∧ (s.front 0).fetch = [(2, 64, 128)] ∧ (s.front 0).parked = none ∧ s.fld F.FE_PSTAT.STATE [0] ∈ [4, 6] ∧
        128 % 64 = 0 ∧ (s.modFront 0 (fun f => { f with fetch := [] })).descOk d = true) ∧
      (r.part 0).selfq = [(0, 0, 0, 0, 0)] ∧ r.selfRefused 0 = none ∧ r.selfRing 0 = some 63 ∧ s0.selfRefused 0 = some 1 := by
  decide +kernel

theorem test_meets_StreamCommandsChangeTheirEntry :
    let e := fun (st : Byte) => overwrite (List.replicate 32 0) 10 [st]
    let s := fun (st : Byte) => { s0 with scache := [(2097151, e st)] }
    (∀ st ∈ [0, 1, 2, 3, 4], (s st).coreOn = true ∧ (s st).scmdq = none ∧ (e st).length = 32 ∧ (s st).scache.length ≤ 16384 ∧
      (s st).scache.find? (fun x => x.1 == 2097151) = some (2097151, e st) ∧ streamState (e st) = st.toNat) ∧
      streamState s0.sdata ∉ [1, 3, 4] ∧ streamState (w F.FE_SDATA.DATA [1] (3 * 2 ^ 16) s0).sdata ∈ [1, 3] := by decide +kernel

theorem test_meets_PartitionCommandsActOnTheirPartition :
    let g := w F.FE_PSTAT.GEN [0] 65535 (sFront 1 id)
    let d := { sFront 8 id with drains := [(0, 1)] }
    let f : Fly := ⟨0, 0, 0, 0, 8, false, 0, true, 0, 8, 0, none, none, false⟩
    let late := { d with engs := [(0, { Eng.empty with fly := [f] })] }
    (s0.coreOn = true ∧ (s0.rightsOf .tap).ofPart 0 = true ∧ g.fld F.FE_PSTAT.STATE [0] ∉ [0, 8] ∧ (g.front 0).dissolving = false) ∧
      (∀ st ∈ [2, 5], ((sFront st id).part 0).live = false ∧ (sFront st id).fld F.FE_PSTAT.STATE [0] = st) ∧
      ((sRun.part 0).live = true ∧ (sRun.part 0).stopAt = none) ∧ g.fld F.FE_PSTAT.GEN [0] = 65535 ∧
      (w F.FE_PSTAT.GEN [0] 65534 g).fld F.FE_PSTAT.GEN [0] < 65535 ∧ (d.front 0).dissolving = false ∧
      d.drains.find? (fun d => d.1 == 0) = some (0, 1) ∧ d.drained 0 = true ∧ late.drained 0 = false := by decide +kernel

theorem test_meets_PartitionsAreCreatedAndDissolved :
    let s : State := { s0 with pcmd := some ⟨1, 0, [], 0, false⟩, od := [(0x4120 * 256 + 3, [1])], gbw := 1000 }
    let d : State := { sFront 1 id with pcmd := some ⟨2, 0, [], 0, false⟩ }
    let h := (sFront 1 (fun f => { f with priv := true })).modPart 0 (fun q => { q with cls := [1249] })
    (s.coreOn = true ∧ s.pcmd = some ⟨1, 0, [], 0, false⟩ ∧ s.fld F.TDE_TSTAT.STATE [] = 0 ∧ s.createCheck s.createReq = 0 ∧
        s.createReq.mode = 0 ∧ s0.createCheck s0.createReq ≠ 0) ∧
      (d.fld F.TDE_TSTAT.STATE [] = 0 ∧ d.odNat 0x3100 2 0 = 0 ∧ d.dissolveRefused 0 = 0 ∧ s0.dissolveRefused 0 ≠ 0) ∧
      s0.fld F.FE_PSTAT.STATE [0] = 0 ∧ (h.front 0).priv = true ∧ h.fld F.FE_PSTAT.STATE [0] = 1 ∧ (h.part 0).cls = [1249] ∧
      (h.front 0).dissolving = false ∧ (h.ringsOf 0).any h.ringPending = false := by decide +kernel

/-- A fill descriptor of partition 0. -/
def fill : Desc := ⟨0, 0, 0, 0, fillBody, 2, none, 0, 0, 0, false, none, 0, 0⟩

/-- The ferries run, every engine serves partition 0, its bucket is full, and engine 0 is as given. -/
def sFerry (k : Eng) : State :=
  { w F.FRY_CTL.EN [] 1 (w F.FRY_CTL.STEAL [] 1 (w F.FRY_PMASK.MASK [0] (2 ^ 64 - 1) (w F.FRY_PRATE.RATE [0] 1 s0))) with
    engs := [(0, k)]
    bucket := [(0, 2 ^ 22)] }

theorem test_meets_FerryEnginesPlaceChooseStealAndPark :
    let okd := fun (s : State) (d : Desc) => decide (d.off < d.len) && d.fail.isNone && s.ready d
    let placed := fun (n : Nat) => (sFerry { Eng.empty with q := List.replicate n fill }).modFront 0 (fun f => { f with place := [fill] })
    let q := sFerry { Eng.empty with q := [fill] }
    let a := sFerry { Eng.empty with act := some fill }
    let p := sFerry { Eng.empty with park := listSet Eng.empty.park 7 (some ⟨fill, 0, 0, 0, 0, 0, 0, false, false⟩) }
    (∀ n ∈ [63, 64], (placed n).coreOn = true ∧ ((placed n).front 0).place = [fill] ∧ (placed n).placeAt fill = some 0 ∧
        ((placed n).eng 0).q.length = n) ∧
      (q.fld F.FRY_CTL.EN [] = 1 ∧ (q.eng 0).chunk = false ∧ (q.eng 0).act = none ∧ (q.eng 0).freeSlot.isSome = true ∧
        (q.eng 0).q.any (okd q) = true ∧ (q.eng 4).q.any (okd q) = false) ∧
      (q.fld F.FRY_CTL.STEAL [] = 1 ∧ (q.eng 4).q.any q.ready = false ∧ (q.eng 4).q.length < 64 ∧ engDist 4 0 = 4 ∧
        (q.eng 0).q.any (q.stealable 4) = true) ∧
      ((a.eng 0).act = some fill ∧ (a.eng 0).freeSlot = some 0 ∧ fill.off < fill.len) ∧
      ((sFerry { Eng.empty with act := some fill, chunk := true }).eng 0).chunk = true ∧
      (listGet none (p.eng 0).park 7 = some ⟨fill, 0, 0, 0, 0, 0, 0, false, false⟩ ∧ (p.eng 0).park.length = 8) ∧
      listGet none (p.eng 0).park 6 = none := by decide +kernel

theorem test_meets_FerryPiecesMoveTheirBytes :
    let s := resident 0 (w F.CLU_GWCFG.OPEN [0, 31] 1 (w F.CLU_GWCFG.FERRY [0, 31] 1 (w F.CLU_GWCFG.LEN [0, 31] 1
      (w F.CLU_GWCFG.SRCP [0, 31] 0x1F (w F.CLU_GWCRD.CRD [0, 31] 1 (sFerry { Eng.empty with act := some fill, chunk := true }))))))
    let f := fun (wr : Bool) => (⟨0, 0, 0, 0, 8, wr, 0, false, 0, 8, 0, none, none, false⟩ : Fly)
    let fl := fun (wr : Bool) => sFerry { Eng.empty with fly := [f wr], act := some fill }
    let wk : CWalk := ⟨5, 0, 0, 0, 0, ⟨false, 0, 0⟩, false, false⟩
    let ch := w F.CHT_ROOT.VAL [0] 1 (w F.CHT_PMAP.VAL [0] 1 { sFerry { Eng.empty with act := some fill } with walks := [wk] })
    let done := sFerry { Eng.empty with act := some { fill with off := 8 } }
    (s.coreOn = true ∧ (s.eng 0).ringHead = none ∧ (s.eng 0).act = some fill ∧ s.fld F.FRY_CTL.EN [] = 1 ∧ (s.eng 0).chunk = true ∧
        (s.eng 0).pre = false ∧ fill.off < fill.len ∧ fill.fail = none ∧ (s.eng 0).fly = [] ∧ fill.op = 2 ∧ fill.dsp = 1 ∧
        s.pieceLen fill = 8 ∧ s.judgeWrite ⟨0, 0, 0, leBytes 8 0, .ferry, 0, 0, 0⟩ = .inl 31) ∧
      (∀ wr : Bool, ((fl wr).eng 0).ringHead = none ∧ ((fl wr).eng 0).fly = [f wr] ∧ (f wr).sink = false ∧ (f true).wr = true ∧
        ∀ d ∈ ((fl wr).eng 0).all, d.fin ≠ 1) ∧
      (ch.walks.find? (fun x => x.id == 5) = some wk ∧ wk.eng = 0 ∧ (ch.eng 0).act = some fill ∧ fill.uid = wk.uid ∧
        (ch.xlate 0 ⟨false, 0, 0⟩ false [.entry 0x1001, .entry 7]).out = .ok 0) ∧
      (done.ending 0 = some { fill with off := 8 } ∧ bitAt fill.flags 2 = false ∧ bitAt fill.flags 1 = false) := by decide +kernel

theorem test_meets_InvalidationsDropTheirEntriesAndFaultRecordsQueue :
    let b := w F.CHT_INV.BUSY [] 1 s0
    let x : Nat × Nat × Bytes := (0, 0, [])
    let r := fun (n : Nat) (full : Bool) => { w F.FRY_FQIDX.WIDX [] n s0 with frecs := [x], fqFull := full }
    let used := fun (s : State) => (s.fld F.FRY_FQIDX.WIDX [] + 2 ^ 32 - s.fld F.FRY_FQIDX.RIDX []) % 2 ^ 32
    let size := 2 ^ min 16 (max 4 (s0.fld F.FRY_FQBASE.LSIZE []))
    (s0.coreOn = true ∧ isFw .fw = true ∧ (s0.rightsOf .tap).ofPart 15 = true ∧ s0.fld F.CHT_INV.BUSY [] = 0) ∧
      (b.fld F.CHT_INV.BUSY [] = 1 ∧ b.walks = []) ∧
      ({ b with walks := [⟨0, 0, 0, 0, 0, ⟨false, 0, 0⟩, false, true⟩] } : State).walks.any (·.stale) = true ∧
      used (r (size - 1) false) < size ∧ size ≤ used (r size false) ∧ size ≤ used (r size true) ∧ (r size true).fqFull = true := by
  decide +kernel

theorem test_more_CoherenceMessagesMoveTheirLine :
    let s : State := { sCoh with coh := [(63, ⟨List.replicate 64 0, 1, false⟩)] }
    let en := w F.FE_RING_CFG.EN [63] 1 s
    (s0.home = none ∧ (s0.line 5).st ≠ 5) ∧
      ¬((63 < 64 ∧ (s0.line 63).st = 1) ∨ (64 ≤ 63 ∧ (s0.line 63).st = 3)) ∧
      (en.fld F.FE_RING_CFG.EN [63] = 1 ∧ en.fld F.FE_RING_CFG.SELF [63] = 0 ∧
        s.ringSize 63 < sub32 17 (s.fld F.FE_RING_IDX.DONE [63])) ∧
      ((noRights s0).rightsOf .i3c).ofPart 0 = false ∧ isFw .i3c = false := by decide

theorem test_more_EventsQueueAppendAndAreLostInOrder :
    let e : Event := ⟨0, 0, 0, 0, 0, 0, 0, 0⟩
    let full : State := { s0 with evq := List.replicate 1024 e }
    s0.mp.rlNew < 256 ∧ full.mp.rlNew < 256 ∧ s0.evq = [] ∧ (1 : Nat) ≠ 2 := by decide

/-- A fetch that had parked; a second fetch of a RELEASE whose list faults, errs or is read; one that waits its turn; a batch
none of whose streams is eligible. -/
theorem test_more_ManifestsAreFetchedAndChecked :
    let x : CheckFetch := ⟨.memErr, .memErr, .memErr, .memErr, .memErr, []⟩
    let again := w F.FE_CTL.EN [] 1 (sFront 2 id)
    let rel := man 3 (fun b => overwrite b 0x1C [1])
    let chk := fun (g : Fe → Fe) => sFront 3 (fun f => g { f with man := rel, w := 1, h := 1 })
    let root := fun (s : State) => w F.CHT_PMAP.VAL [0] 1 (w F.CHT_ROOT.VAL [0] 1 s)
    let good := overwrite (List.replicate 32 0) 6 [0, 0, 1, 1]
    let wait := (w F.FE_PSTAT.STATE [1] 3 (sFront 3 (fun f => { f with waiting := true, priv := true, w := 1, h := 1 }))).modFront 1
      (fun f => { f with waiting := true, priv := true, w := 1, h := 1 })
    let gat := sFront 3 (fun f => { f with gather := true, man := man 1 (fun b => overwrite b 0x3C [1, 0, 1]), gq := [(0, List.replicate 32 0)] })
    (s0.fld F.FE_CTL.EN [] = 0 ∧ again.fld F.FE_CTL.EN [] = 1 ∧ again.fld F.FE_PSTAT.STATE [0] = 2 ∧ (again.front 0).parked = none ∧
        s0.pickRing 0 = none) ∧
      ((chk id).fld F.FE_PSTAT.STATE [0] = 3 ∧ ((chk id).front 0).parked = none ∧ ((chk id).front 0).gather = false ∧
        crc32 (slice rel 0 0x7C) = leAt rel 0x7C 4 ∧ (chk id).manFormat 0 rel = true ∧ manKind rel = 3 ∧ leAt rel 0x1C 2 = 1 ∧
        ((chk id).front 0).priv = false) ∧
      ((chk id).feFetch 0 0 32 x.blist ≠ .memErr ∧ (root (chk id)).feFetch 0 0 32 .memErr = .memErr ∧
        (root (chk id)).feFetch 0 0 32 (.bytes good) = .bytes good ∧ (root (chk id)).berthsOk 0 3 [good] = true ∧
        (root (chk id)).berthsOk 0 3 [overwrite good 0 [128]] = false) ∧
      (wait.claimBefore 1 = true ∧ (wait.front 1).priv = true ∧ (wait.part 1).cls = []) ∧
      (gat.fld F.FE_PSTAT.STATE [0] = 3 ∧ (gat.front 0).gather = true ∧
        (gat.front 0).gq.filter (fun q => decide (streamPos q.2 + manAdv (gat.front 0).man ≤ streamLimit q.2)) = []) ∧
      (sFront 4 id).fld F.FE_PSTAT.STATE [0] ≠ 3 := by decide +kernel

theorem test_more_VoyagesLoadStartAndEnd :
    let v := fun (f : Fe → Fe) => sFront 4 (fun k => f { k with man := [1, 1] })
    let rel := sFront 4 (fun f => { f with man := [1, 3], berths := [overwrite (List.replicate 32 0) 6 [0, 0, 1, 1]], w := 1, h := 1 })
    let r := w F.LND_FLCFG.VAL [0, 0] 1 (w F.LND_FLCFG.MPOS [0, 0] (2 ^ 6) (sFront 5 id))
    let c7 := fun (f : Fe → Fe) => sFront 7 f
    let fin := (c7 id).modPart 0 (fun q => { q with fin := some (endStatus 0x10) })
    let fly := { c7 (fun f => { f with fail := some (endStatus 1) }) with
      engs := [(0, { Eng.empty with fly := [⟨0, 0, 0, 0, 8, false, 0, false, 0, 8, 0, none, none, false⟩] })] }
    (s0.front 0).loading = [] ∧
      (rel.fld F.FE_PSTAT.STATE [0] = 4 ∧ manKind (rel.front 0).man = 3 ∧
        (w F.CLU_BERTH.VAL [0, 0] 1 rel).bit F.CLU_BERTH.VAL [0, 0] = true) ∧
      ((v (fun f => { f with opening := true, place := [desc []] })).preLeft 0 = true ∧
        (v (fun f => { f with opening := true, fetch := [(1, 0, 0)] })).preLeft 0 = true) ∧
      (r.fld F.FE_PSTAT.STATE [0] = 5 ∧ r.members 0 ≠ [] ∧ (r.startJoined 0).2 = false) ∧
      (sRun.fld F.FE_PSTAT.STATE [0] = 6 ∧ sRun.allEnded 0 = false) ∧
      (fin.fld F.FE_PSTAT.STATE [0] = 7 ∧ (fin.front 0).record = none ∧ (fin.front 0).closing = none ∧
        ((fin.dropDescs 0).takeWaits).noFlight 0 = true) ∧
      ((fly.dropDescs 0).takeWaits).noFlight 0 = false ∧
      (c7 (fun f => { f with closing := some (endStatus 0, true) })).fld F.FE_PSTAT.STATE [0] = 7 ∧
      ({ s0 with seOut := [(3, 0)] } : State).seOut ≠ [] ∧ (s0.front 0).record = none := by decide +kernel

theorem test_more_AWindowMayFailToOpen :
    let v := fun (f : Fe → Fe) => sFront 4 (fun k => f { k with man := [1, 1] })
    let win := v (fun f => { f with wins := [overwrite (List.replicate 20 0) 8 [0, 0, 1, 1]] })
    0 < ((v (fun f => { f with progLeft := 1 })).front 0).progLeft - s0.bucketBytes 0 ∧
      ((v id).front 0).progLeft - s0.bucketBytes 0 = 0 ∧
      (((((v id).payLoad 0).loadProgram 0).writeParams 0).openWindows 0).2 = true ∧
      (((((win.payLoad 0).loadProgram 0).writeParams 0).openWindows 0)).2 = false := by decide +kernel

theorem test_more_DescriptorsAndSelfEnqueuesAreTaken :
    let s := fun (a : Nat) => (sFront 4 (fun f => { f with fetch := [(2, 64, a)] })).modPart 0 (fun q => { q with cls := [0] })
    let root := fun (a : Nat) => w F.CHT_PMAP.VAL [0] 1 (w F.CHT_ROOT.VAL [0] 1 (s a))
    ((s0.front 0).fetch = [] ∧ (s0.part 0).selfq = []) ∧
      ((root 128).feFetch 0 128 64 (.bytes []) = .bytes []) ∧ ((root 128).feFetch 0 128 64 .memErr = .memErr ∧
        (s 128).feFetch 0 128 64 .memErr ≠ .memErr ∧ 65 % 64 ≠ 0) := by decide +kernel

theorem test_more_ADescriptorMayFailItsChecks :
    let d : Desc := ⟨0, 0, 0, 128, [], 2, none, 64, 0, 0, false, none, 0, 0⟩
    sRun.descOk { d with body := [1] } = false ∧ (bitAt d.flags 2 && d.doneva % 16 == 0) = false := by decide +kernel

/-- A waiting command, requesters without a right, and the states of an entry by which the table refuses. -/
theorem test_more_StreamCommandsChangeTheirEntry :
    let e := fun (st part : Byte) => overwrite (List.replicate 32 0) 8 [part, 0, st]
    let s := fun (st part : Byte) => { s0 with scache := [(5, e st part)] }
    let q : State := { noRights s0 with od := [(0x7100 * 256 + 1, leBytes 8 0), (0x7100 * 256 + 2, leBytes 8 0)] }
    let one := Requester.i3c
    let r := fun (t : State) => ({ t with
      od := [(0x7100 * 256 + 1, leBytes 8 (s0.rightsEntry 1 % 2 ^ 16 + 2 ^ 16 + s0.rightsEntry 1 / 2 ^ 43 * 2 ^ 43)),
        (0x7100 * 256 + 2, leBytes 8 0)] } : State)
    ({ s0 with scmdq := some .fw } : State).scmdq = some .fw ∧ ((q.rightsOf .i3c).pmask = 0 ∧ isFw .i3c = false) ∧
      (streamState ((s 1 3).streamGet 5 []).2 = 1 ∧ streamPart ((s 1 3).streamGet 5 []).2 = 3) ∧
      ¬((r (s 1 3)).rightsOf one).ofPart 3 = true ∧ ((r (s 1 3)).rightsOf one).ofPart 0 = true ∧ isFw .fw = true ∧
      (∀ st ∈ [0, 1, 2, 3, 4], streamState ((s st 0).streamGet 5 []).2 = st.toNat) := by decide +kernel

theorem test_more_PartitionCommandsActOnTheirPartition :
    let g := sFront 1 id
    let run := w F.FE_PSTAT.GEN [0] 3 sRun
    let stopped := w F.FLT_PREC.STATE [0] 3 sRun
    let dis := { sFront 8 (fun f => { f with dissolving := true }) with drains := [(0, 1)] }
    let dead := sFront 5 (fun f => { f with dissolving := true })
    (isFw .i3c = false ∧ ((noRights s0).rightsOf .i3c).ofPart 0 = false ∧ (sFront 8 id).fld F.FE_PSTAT.STATE [0] = 8 ∧
        s0.fld F.FE_PSTAT.STATE [0] = 0 ∧ (dead.front 0).dissolving = true) ∧
      ((g.part 0).live = false ∧ g.fld F.FE_PSTAT.STATE [0] = 1) ∧
      (run.voyaging 0 = true ∧ (run.part 0).stopAt = none ∧ run.fld F.FE_PSTAT.GEN [0] < 65535) ∧
      ((stopped.part 0).live = true ∧ stopped.voyaging 0 = false) ∧
      (s0.drains.find? (fun d => d.1 == 0) = none ∧ (s0.front 0).resetting = false) ∧
      ((dis.front 0).dissolving = true ∧ dis.drained 0 = true) := by decide +kernel

theorem test_more_PartitionsAreCreatedAndDissolved :
    let c := fun (op : Nat) (begun : Bool) (s : State) => { s with pcmd := some ⟨op, 0, [7], 0, begun⟩ }
    let tide := w F.TDE_TSTAT.STATE [] 2 s0
    let priv : State := { s0 with
      pcmd := some ⟨1, 0, [], 0, false⟩
      od := [(0x3100 * 256 + 3, [1]), (0x4120 * 256 + 3, [1])] }
    let busy := (c 2 true s0).modClu 7 (fun k => { k with leaving := true })
    s0.pcmd = none ∧ (c 1 false tide).fld F.TDE_TSTAT.STATE [] ≠ 0 ∧ (c 2 true s0).pcmd = some ⟨2, 0, [7], 0, true⟩ ∧
      priv.createReq.mode = 1 ∧
      ((c 2 true s0).exists_ 0 = false ∧ [7].all (fun x => !((c 2 true s0).clu x).leaving) = true) ∧
      [7].all (fun x => !(busy.clu x).leaving) = false ∧ (s0.front 0).priv = false := by decide +kernel

/-- The ways an engine and its commands are left as they are, or turned away. -/
theorem test_more_FerryEnginesPlaceChooseStealAndPark :
    let okd := fun (s : State) (d : Desc) => decide (d.off < d.len) && d.fail.isNone && s.ready d
    let low := { fill with begun := true }
    let high := { fill with part := 1, uid := 1 }
    let full : List (Option Park) := List.replicate 8 (some ⟨fill, 0, 0, 0, 0, 0, 0, false, false⟩)
    let two := w F.FRY_PRATE.PRIO [1] 1 (sFerry { Eng.empty with act := some low, q := [high] })
    let poor := { sFerry { Eng.empty with act := some low } with bucket := [] }
    let done := { fill with off := 8 }
    (s0.front 0).place = [] ∧ s0.placeAt { fill with eng := 64 } = none ∧
      (s0.fld F.FRY_CTL.EN [] ≠ 1 ∧ (w F.TDE_TSTAT.STATE [] 2 s0).chunkOpen 0 = false ∧ (s0.chunkOpen 0) = true) ∧
      ((sFerry Eng.empty).eng 0).q.any (okd (sFerry Eng.empty)) = false ∧
      ({ Eng.empty with park := full } : Eng).freeSlot = none ∧ done.len ≤ done.off ∧ low.off < low.len ∧ low.fail = none ∧
      ((two.eng 0).act = some low ∧ (two.eng 0).freeSlot.isSome = true) ∧
      (okd poor low = false ∧ (poor.eng 0).act = some low ∧ (poor.eng 0).q = []) ∧
      (isFw .i3c || ((noRights s0).rightsOf .i3c).ofPart 0) = false := by decide +kernel

theorem test_more_APrecedenceTakesTheEngine :
    let low := { fill with begun := true }
    let high := { fill with part := 1, uid := 1 }
    let s := { w F.FRY_PRATE.RATE [1] 1 (w F.FRY_PRATE.PRIO [1] 1 (sFerry { Eng.empty with act := some low, q := [high] })) with
      bucket := [(0, 2 ^ 22), (1, 2 ^ 22)] }
    s.ready high = true ∧ high.off < high.len ∧ s.fld F.FRY_PRATE.PRIO [0] < s.fld F.FRY_PRATE.PRIO [1] ∧
      s.ready low = true ∧ (∀ x ∈ (s.eng 0).q, x.uid ≠ low.uid) := by decide +kernel

theorem test_more_ParkedDescriptorsAreResolved :
    let x : Park := ⟨fill, 3, 0, 0, 0, 0, 1, false, false⟩
    let p := sFerry { Eng.empty with park := listSet Eng.empty.park 7 (some x) }
    let f := s0.modFront 3 (fun k => { k with parked := some ⟨2, 1, 0, 0⟩ })
    p.parkAt 0 7 = some x ∧ p.parkAt 0 6 = none ∧ s0.gone.contains (0, 6) = false ∧
      ({ s0 with gone := [(0, 6)] } : State).gone.contains (0, 6) = true ∧ f.parkedFront = some 3 ∧ isFw .fw = true ∧
      (s0.fld F.FRY_PRATE.RATE [1] = 0 ∧ p.fld F.FRY_PRATE.RATE [0] ≠ 0) := by decide +kernel

theorem test_more_FerryPiecesMoveTheirBytes :
    let f : Fly := ⟨0, 0, 0, 0, 8, false, 0, false, 0, 8, 0, none, none, false⟩
    let s := resident 0 (w F.CLU_GWCFG.OPEN [0, 31] 1 (w F.CLU_GWCFG.FERRY [0, 31] 1 (w F.CLU_GWCFG.LEN [0, 31] 1
      (w F.CLU_GWCFG.SRCP [0, 31] 0x1F (w F.CLU_GWCRD.CRD [0, 31] 1 (sFerry { Eng.empty with fly := [f], act := some fill }))))))
    let wk : CWalk := ⟨5, 0, 0, 0, 0, ⟨false, 0, 0⟩, false, false⟩
    let g := { sFerry Eng.empty with walks := [wk] }
    let tally := { fill with off := 8, body := overwrite fillBody 6 [2] }
    let e := sFerry { Eng.empty with act := some tally }
    ((s.eng 0).all.find? (fun d => d.uid == f.uid) = some fill ∧ fill.dsp = 1 ∧ fill.load = none ∧ f.ring = false ∧
        s.judgeWrite ⟨0, 0, 0, List.replicate 8 1, .ferry, 0, 0, 0⟩ = .inl 31) ∧
      (s.eng 0).fly.any (fun f => f.off == respOff (.done 8)) = false ∧
      (g.walks.find? (fun x => x.id == 5) = some wk ∧ (g.eng 0).all.any (fun d => d.uid == wk.uid) = false ∧
        s0.walks.find? (fun x => x.id == 5) = none) ∧
      (s0.ending 0 = none ∧ e.ending 0 = some tally ∧ bitAt tally.flags 2 = false ∧ bitAt tally.flags 1 = true ∧ tally.fail = none ∧
        (w F.TDE_TSTAT.STATE [] 2 e).fld F.TDE_TSTAT.STATE [] = 2) := by decide +kernel

theorem test_more_InvalidationsAreTurnedAway :
    let st : State := { w F.CHT_INV.BUSY [] 1 s0 with walks := [⟨0, 0, 0, 0, 0, ⟨false, 0, 0⟩, false, true⟩] }
    (isFw .i3c || ((noRights s0).rightsOf .i3c).ofPart 0) = false ∧ st.fld F.CHT_INV.BUSY [] = 1 ∧
      (∃ x ∈ st.walks, x.stale = true) ∧ s0.frecs = [] := by decide +kernel

theorem test_meets_ClaimsAreResolvedByTermThenPosition :
    let h := w F.ID_STRAP.HCAND [] 1 (w F.ID_STRAP.VALID [] 1 s0)
    s0.coreOn = true ∧ s0.term < 1 ∧ s0.term = 0 ∧ 62 < s0.fld F.CLK_HELM_1.HPOS [] ∧ s0.fld F.CLK_HELM_1.HPOS [] = 63 ∧
      (let b := w F.CLK_HELM_1.HPOS [] 5 s0
       ¬(b.term < 0 ∨ (0 = b.term ∧ 6 < b.fld F.CLK_HELM_1.HPOS [])) ∧ ¬(0 = b.term ∧ 6 = b.fld F.CLK_HELM_1.HPOS [])) ∧
      s0.holds .fw 2 0 = true ∧ s0.bit F.ID_STRAP.HCAND [] = false ∧ h.bit F.ID_STRAP.HCAND [] = true ∧
      h.bit F.ID_STRAP.VALID [] = true ∧ h.fld F.CLK_HELM_0.HMAXT [] < 1 ∧ h.term < 1 := by decide +kernel

/-- The helm of a package of one die. -/
def sHelm : State := { w F.CLK_HELM_1.HSTATE [] 2 s0 with od := [(0x2010 * 256 + 2, leBytes 8 1)] }

theorem test_meets_NoticesArrivalsAndTheLateExpiry :
    let n : State := { sRun with tide := { sRun.tide with noticed := true } }
    let m : State := { s0 with tide := { s0.tide with noticed := true } }
    (sHelm.coreOn = true ∧ sHelm.hstate = 2 ∧ sHelm.helm.ntc ≤ sHelm.nextTide ∧ sHelm.nextTide = 0) ∧
      (let t : State := { sHelm with tide := { sHelm.tide with begun := true } }
       t.hstate = 2 ∧ t.helm.ntc ≤ t.nextTide ∧ t.nextTide ≠ 0) ∧ s0.hstate ≠ 2 ∧
      (m.tst = 0 ∧ m.tide.noticed = true ∧ (∀ p < 16, m.arrived p = true) ∧ s0.tide.noticed = false) ∧
      (n.tst = 0 ∧ n.tide.noticed = true ∧ n.arrived 0 = false ∧ (∀ d ∈ (n.part 0).cls, d < 1250 ∧ (n.clu d).pend = []) ∧
        n.tnet = []) := by decide +kernel

theorem test_meets_SealsAndReleasesOfTides :
    let a := w F.TDE_TSTAT.STATE [] 1 s0
    let b := w F.TDE_TSTAT.STATE [] 2 s0
    let h : State := { sHelm with helm := { sHelm.helm with seals := [(0, 1)] } }
    (a.coreOn = true ∧ a.tst = 1 ∧ a.acked = true ∧ s0.tst ≠ 1 ∧ h.hstate = 2 ∧
        (h.members_.map (fun q => SMap.get 0 h.helm.seals q)).min? = some 1 ∧ h.helm.rel < 1) ∧
      (let r : State := { h with helm := { h.helm with rel := 1 } }
       (r.members_.map (fun q => SMap.get 0 r.helm.seals q)).min? = some 1 ∧ 1 ≤ r.helm.rel) ∧
      (b.tst = 2 ∧ b.nextTide = 0 ∧ b.term = 0 ∧ b.tide.stalled = false ∧ b.evq.length < 1024 ∧ s0.hstate ≠ 2) := by decide +kernel

theorem test_meets_ReconciliationChecksAnEntryOnce :
    let s := fun (w0 w1 : Nat) => { w F.TDE_TCFG.ASG [16383] 1 (w F.TDE_PRANGE.CNT [0] 1 (w F.TDE_PRANGE.BASE [0] 16383
      (w F.TDE_TAL.VALUE [16383] 9 s0))) with tide := { s0.tide with lists := [(0, 5, [(w0, w1)])] } }
    let e := fun (b : Nat) => 16383 * 2 ^ 48 + 2 ^ b
    bits (e 47) 48 16 = 16383 ∧ 16383 ∈ (s (e 47) 0).tallyRange 0 ∧ (s (e 47) 0).tallyOf 0 16383 = true ∧
      bits (e 47) 24 19 = 0 ∧ (bitAt (e 47) 47 = true ∧ (s (e 47) 0).fld F.TDE_TCNT.PROD [16383] ≠ bits (2 ^ 32) 32 24) ∧
      (bitAt (e 45) 45 = true ∧ (s (e 45) 0).fld F.TDE_TAL.VALUE [16383] ≠ bits (e 45) 0 24 ∧ bitAt (e 45) 44 = false) ∧
      bits (e 42) 24 19 ≠ 0 ∧ (s (e 47) 0).tallyOf 1 16383 = false := by decide +kernel

theorem test_meets_ReconAppliesAndTheRampReturnsToRun :
    let s := w F.TDE_TSTAT.STATE [] 3 s0
    let r : State := { s with tide := { s.tide with recon := true } }
    let g : State := { s with pow := { s.pow with grant := some (0, 5) } }
    let m := w F.TDE_TSTAT.STATE [] 4 s0
    let x := w F.TDE_TCFG.ASG [7] 1 (w F.TDE_TCFG.XPART [7] 0x1F (w F.TDE_TCFG.XDIE [7] 0x3F s0))
    (s.coreOn = true ∧ s.tst = 3 ∧ s.tide.recon = false ∧ (∀ l < 8, (s.lnd l).chg = none) ∧ s.reconcile.2 = [] ∧
        g.pow.grant = some (g.fld F.TDE_TNUM.NUM [], 5) ∧ s.pow.grant = none) ∧
      (r.tst = 3 ∧ r.tide.recon = true ∧ s0.tst ≠ 3) ∧
      (m.tst = 4 ∧ (w F.TDE_RAMP.WAVE [] 14 m).fld F.TDE_RAMP.WAVE [] < 15 ∧ (w F.TDE_RAMP.WAVE [] 15 m).fld F.TDE_RAMP.WAVE [] = 15 ∧
        (w F.FE_PSTAT.STATE [15] 1 m).exists_ 15 = true) ∧
      (x.period = 0 ∧ x.tst ≠ 3 ∧ x.tide.waits = [] ∧ x.tallyAdmits 7 15 0 (some 63) = true ∧
        (x.part (x.fld F.TDE_TCFG.OWNER [7])).live = false) ∧
      ({ s0 with tide := { s0.tide with begun := true } } : State).period = 1 := by decide +kernel

theorem test_meets_GrantsMoveAndNeverGrowInSum :
    let h : State := { sHelm with
      tide := { sHelm.tide with begun := true }
      od := [(0x2010 * 256 + 2, leBytes 8 1), (0x3120 * 256 + 1, leBytes 4 700)]
      helm := { sHelm.helm with begun := true, pkgb := 700000, grants := [(0, 300000)] } }
    let l := w F.LND_STAT.STATE [7] 3 s0
    (h.coreOn = true ∧ h.hstate = 2 ∧ h.tide.begun = true ∧ h.pkgb ≠ 0 ∧ h.helm.begun = true ∧ h.helm.pkgb = h.pkgb ∧
        h.helm.grants.map (·.1) = h.members_ ∧ (h.helm.reps.map (·.1)).Nodup ∧ (∀ g ∈ h.helm.grants, h.gmin ≤ g.2) ∧
        ∀ g ∈ h.helm.grants, g.2 ≤ h.penv) ∧
      (sHelm.hstate = 2 ∧ sHelm.pkgb = 0 ∧ s0.hstate ≠ 2) ∧
      (l.torec 7 = true ∧ l.tst ≠ 2 ∧ ¬(l.tst = 3 ∧ l.tide.recon = false) ∧ (w F.TDE_TSTAT.STATE [] 2 l).tst = 2 ∧
        (w F.TDE_TSTAT.STATE [] 2 l).torec 7 = true) := by decide +kernel

/-- Landing 0 is UP, carries Torec with every class, and routes to position 1. -/
def sUp : State := w F.LND_STAT.CLS [0] 0x3F ((sLand 2 2 id).setWord .LND_ROUTE [0] 0x8000)

/-- A header of class `c` and opcode `o` to position `d`. -/
def hd (c o : BitVec 4) (d : BitVec 6) (poi : Bool) (addr : BitVec 52) : Header := ⟨c, o, 1, d, 0, 0, 0, 0, poi, 9, false, addr⟩

/-- A piece in flight under tag 9, as engine 63's only one. -/
def fly9 (wr : Bool) (n1 : Nat) : Fly := ⟨0, 0, 0, 0, 8, wr, 9, false, 0, n1, 0, none, none, false⟩
def sFly (wr : Bool) (n1 : Nat) : State := { sUp with engs := [(63, { Eng.empty with fly := [fly9 wr n1] })] }

theorem test_meets_MessagesAreAnsweredForwardedOrCounted :
    let s := w F.LND_STAT.CLS [0] 0x3F (w F.LND_STAT.STATE [0] 2 (resident 0 (w F.CLU_GWCFG.OPEN [0, 31] 1
      (w F.CLU_GWCFG.LAND [0, 31] 1 (w F.CLU_GWCFG.LEN [0, 31] 1 (w F.CLU_GWCFG.SRCP [0, 31] 0x1F (w F.CLU_GWCFG.SRCD [0, 31] 0x3F
        (w F.CLU_GWCRD.CRD [0, 31] 1 s0))))))))
    let h := hd 0 2 0 false 0
    s.coreOn = true ∧ s.torec 0 = true ∧ s.badMessage 0 h = false ∧ s.enabled (bwrWrite h []).cluster = true ∧
      s.judgeWrite (bwrWrite h (leBytes 8 0)) = .inl 31 ∧ s.judgeWrite (bwrWrite h []) = .inr 6 ∧
      s.judgeWrite { bwrWrite h (leBytes 8 0) with gen := 1 } = .inr 0 ∧
      s.enabled (bwrWrite (hd 0 2 0 false (1250 * 2 ^ 32)) []).cluster = false ∧ s.badMessage 0 (hd 0 1 0 false 0) = false ∧
      s.trHeld = 0 ∧ (s.lnd 0).txq = [] ∧ s.badMessage 0 (hd 15 0 0 false 0) = true ∧ s0.torec 0 = false ∧
      (hd 0 2 0 true 0).poi = true := by decide +kernel

theorem test_meets_AnswersFindTheirPiece :
    (sFly true 8).tagged 9 true = some (63, 0, fly9 true 8) ∧ (sFly false 8).tagged 9 false = some (63, 0, fly9 false 8) ∧
      s0.tagged 9 true = none ∧ (sFly true 8).tagged 9 false = none ∧ s0.seOut = [] ∧ 9 ∉ s0.evOut ∧ 9 ∉ s0.mp.plOut ∧
      9 ∈ ({ s0 with evOut := [9] } : State).evOut ∧ (fly9 false 8).tag = 9 ∧ (fly9 false 8).n1 = (fly9 false 8).len ∧
      (fly9 false 8).got2 = none ∧ (sFly false 8).badMessage 0 (hd 0 8 0 false 0) = false := by decide +kernel

theorem test_meets_ReadDataLandsInItsBerth :
    let d : Desc := ⟨0, 0, 0, 0, overwrite (List.replicate 64 0) 3 [1], 2, none, 64, 0, 0, false, none, 0, 0⟩
    let s := resident 0 (w F.CLU_GWCFG.OPEN [0, 31] 1 (w F.CLU_GWCFG.FERRY [0, 31] 1 (w F.CLU_GWCFG.LEN [0, 31] 1
      (w F.CLU_GWCFG.SRCP [0, 31] 0x1F (w F.CLU_GWCRD.CRD [0, 31] 1
        { sUp with engs := [(63, { Eng.empty with fly := [fly9 false 8], act := some d })] })))))
    let x := RemoteWrite.mk (bits d.dst 32 16) (bits d.dst 25 7) (bits d.dst 0 25) (List.replicate 8 5) .ferry 0 0 0
    d.dsp = 1 ∧ d.load = none ∧ (s.eng 63).all.find? (fun x => x.uid == 0) = some d ∧ s.judgeWrite x = .inl 31 ∧
      s.banksIdle x.cluster (s.berthStore 0 0) (s.berthBase 0 0) 8 = true := by decide +kernel

theorem test_meets_MessagesGoOn :
    let q := sUp.modLand 0 (fun k => { k with txq := [(hd 1 0 1 false 0, [])] })
    let c := (4, 1, sUp.castKey (hd 4 4 0x3F false 0) [])
    ((q.lnd 0).txq.find? (fun e => e.1.cls.toNat == 1) = some (hd 1 0 1 false 0, []) ∧ 1 < (q.lnd 0).cred.length ∧
        creditsOf (hd 1 0 1 false 0) [] ≤ listGet 0 (q.lnd 0).cred 1 + 65535) ∧
      ((1 : Nat) ≠ sUp.pos ∧ sUp.routeOf 1 = some 0 ∧ bitAt (sUp.fld F.LND_STAT.CLS [0]) 2 = true ∧
        bitAt (sUp.fld F.LND_STAT.CLS [0]) 5 = true ∧ sUp.routeOf 2 = none) ∧
      (c ∉ sUp.tide.seen ∧ c ∈ ({ sUp with tide := { sUp.tide with seen := [c] } } : State).tide.seen ∧ sUp.pos = 0) := by
  decide +kernel

theorem test_meets_CxlAnswersActAlike :
    let x := fun (wr : Bool) => w F.LND_STAT.PROTO [0] 1 (sFly wr 4)
    (x true).cxlUp 0 = true ∧ (x true).tagged 9 true = some (63, 0, fly9 true 4) ∧ (x true).tagged 9 false = none ∧
      (x false).tagged 9 false = some (63, 0, fly9 false 4) ∧ (fly9 false 4).n1 < (fly9 false 4).len ∧ s0.cxlUp 0 = false := by
  decide +kernel

theorem test_more_TheHelmAndTheTidesTurnAway :
    let h : State := { sHelm with od := [(0x2010 * 256 + 2, leBytes 8 0)] }
    let b : State := { w F.TDE_TSTAT.STATE [] 2 s0 with tide := { s0.tide with stalled := true } }
    (noRights s0).holds .i3c 2 0 = false ∧ (h.hstate = 2 ∧ h.members_ = []) ∧ (s0.mpst ≤ 1 ∧ s0.tst ≠ 1) ∧
      (b.tst = 2 ∧ (1 : BitVec 32).toNat ≠ b.term ∧ b.tide.stalled = true ∧ (0 : W64).toNat = b.nextTide ∧
        (1 : W64).toNat ≠ b.nextTide) ∧
      (2 ≤ (w F.MGT_STAT.MPST [] 2 sHelm).mpst ∧ sHelm.tide.begun = false) := by decide +kernel

theorem test_more_DigestsCclksAndGrants :
    let x := w F.TDE_TCFG.ASG [7] 1 (w F.TDE_TCFG.XPART [7] 0x1F (w F.TDE_TCFG.XDIE [7] 0x3F s0))
    let r : State := { w F.TDE_TSTAT.STATE [] 3 (w F.LND_STAT.STATE [7] 3 s0) with tide := { s0.tide with recon := true } }
    (x.tallyAdmits 7 15 0 (some 63) = true ∧ x.tallyCommitted 7 < (-1 : Int).natAbs ∧ x.tide.waits = [] ∧ (0 : W64).toNat = x.period ∧
        x.tst ≠ 3 ∧ x.period < (1 : W64).toNat) ∧
      s0.torec 7 = false ∧ (r.torec 7 = true ∧ r.tst ≠ 2 ∧ ¬(r.tst = 3 ∧ r.tide.recon = false)) ∧
      (({ s0 with tide := { s0.tide with begun := true } } : State).period = 1) := by decide +kernel

/-- A capability block with the given bytes 0 to 27, and its check right (R387). -/
def capBlock (f : Bytes → Bytes) : Bytes :=
  let b := f (overwrite (List.replicate 28 0) 0 [0x10, 0x10, 0x3F])
  b ++ leBytes 4 (crc32 b)

theorem test_meets_LandingsTrainAndReceiveFrames :
    let t := fun (sent bad : Nat) => sLand 1 1 (fun k => { k with sideUp := [0], capSent := sent, capBad := bad })
    let good := capBlock id
    let tr : Training := ⟨true, 3, 0, 0, 0, false, true, false, [], []⟩
    let ok := sLand 1 1 (fun k => { k with sideUp := [0, 1], capOk := true })
    let fx := w F.LND_FLCFG.VAL [0, 0] 1 (w F.CLK_CCLK.CUR [] 2000000 (sLand 3 2 id))
    let fr : Frame := ⟨[], 0, 0⟩
    let sl := (w F.LND_FLCFG.VAL [0, 0] 1 (w F.CHN_GWCFG.MODE [0, 1] 2 (sLand 3 2 (fun k =>
      { k with slip := [⟨0, 0, [], false, 0⟩] })))).modPart 0 (fun q => { q with cls := [0] })
    ((sLand 1 1 id).coreOn = true ∧ (sLand 1 1 id).lstate 0 = 1 ∧ (sLand 1 1 id).mst 0 1 = 1 ∧ ((sLand 1 1 id).lnd 0).sideUp = [] ∧
        1 ∉ ((t 1 0).lnd 0).sideUp ∧ ((t 1 0).lnd 0).sideUp ≠ [] ∧ ((t 1 0).lnd 0).capOk = false ∧ ((t 1 0).lnd 0).capSent ≤ 1 ∧
        1 < ((t 2 0).lnd 0).capSent ∧ ((t 1 0).lnd 0).capBad = 0 ∧ 1 ≤ ((t 1 1).lnd 0).capBad) ∧
      (crc32 (slice good 0 28) = leAt good 28 4 ∧ max 0x10 (leAt good 1 1) ≤ min 0x10 (leAt good 0 1) ∧
        bitAt (leAt good 2 1) 0 = true ∧ crc32 (slice [1] 0 28) ≠ leAt [1] 28 4) ∧
      (let b := capBlock (fun b => overwrite b 0 [0x0F, 0x10, 0x3F])
       crc32 (slice b 0 28) = leAt b 28 4 ∧ min 0x10 (leAt b 0 1) < max 0x10 (leAt b 1 1)) ∧
      (ok.lstate 0 = 1 ∧ ok.bit F.LND_CTL.TOREC [0] = true ∧ (ok.lnd 0).capOk = true ∧ tr.ok = true ∧ tr.act ≠ 0 ∧ tr.failed = [] ∧
        ok.ledgerOk 0 = false ∧ (∀ m < 4, ok.word .LND_FAIL [0, m] = 0) ∧ bitAt tr.act.toNat 1 = true ∧ ok.mst 0 1 = 1) ∧
      (fx.lstate 0 = 3 ∧ 0 < fx.slotsOf 0 ∧ s0.lstate 0 ≠ 3) ∧
      (let g : Frame := { fr with trailer := 2 ^ 48 }
       bits g.trailer.toNat 0 48 = 0 ∧ (∀ j < fx.slotsOf 0, frameVp g j = if j = 0 then 1 else 0)) ∧
      (sl.slotGate 0 0 = some (0, 1) ∧ ((sl.lnd 0).slip.find? (fun w => w.slot == 0 && w.due == (sl.part (sl.partOf 0)).scyc)).isSome = true) ∧
      (carries (fx.mst 0 1) = true ∧ SMap.get 0 (fx.lnd 0).perr (128 + 63) + 15 < max 1 (fx.fld F.LND_THR.LTHR [0]) ∧
        max 1 (fx.fld F.LND_THR.LTHR [0]) ≤ SMap.get 0 (fx.lnd 0).perr (128 + 63) + 16 ∧
        bitAt (fx.fld F.LND_FAIL.FAIL [0, 1]) 63 = false ∧ fx.evq.length < 1024) := by decide +kernel

theorem test_meets_ModuleChangesAreAskedAgreedAndEnded :
    let c : Change := ⟨true, true, 1, 1, 0, 0, 0, 2, false, false, false⟩
    let s := fun (c : Change) => sLand 2 2 (fun k => { k with chg := some c })
    let few := w F.LND_FLCFG.VAL [0, 0] 1 (sLand 2 2 id)
    let off := w F.LND_MOD.MST [0, 1] 5 (sLand 2 2 id)
    let ret := sLand 2 6 (fun k => { k with retr := [{ c with kind := 3 }] })
    ((s c).coreOn = true ∧ (s c).lstate 0 = 2 ∧ ((sLand 2 2 id).lnd 0).chg = none ∧ ((s c).lnd 0).chg = some c ∧ c.own = true ∧
        c.acked = false ∧ ((s c).lnd 0).wait = [] ∧ (s c).pos = 0 ∧ (w F.ID_STRAP.POS [] 1 (s c)).pos = 1) ∧
      ((s { c with acked := true }).lnd 0).chg = some { c with acked := true } ∧
      (isFw .fw = true ∧ (w F.LND_RTCMD.BUSY [0] 1 (s c)).fld F.LND_RTCMD.BUSY [0] = 1 ∧ (s c).fld F.LND_RTCMD.BUSY [0] = 0 ∧
        carries ((s c).mst 0 1) = true ∧ few.tooFew 0 1 = true ∧ (sLand 2 2 id).tooFew 0 1 = false ∧
        ((sLand 2 2 id).lnd 0).partner = [] ∧ carries (off.mst 0 1) = false ∧ off.mst 0 1 ≠ 6) ∧
      (ret.mst 0 1 = 6 ∧ (ret.lnd 0).retr.find? (fun c => c.m == 1) = some { c with kind := 3 } ∧ (ret.lnd 0).chg = none ∧
        (ret.lnd 0).wait = [] ∧ (ret.lnd 0).partner = []) ∧
      ((sLand 1 1 id).mst 0 1 = 1 ∧ carries ((sLand 2 2 id).mst 0 0) = true ∧
        ((sLand 2 6 (fun k => { k with partner := [10] })).lnd 0).partner.find? (fun x => x / 8 == 1) = some 10) := by decide +kernel

theorem test_meets_PowerStepsFollowTheirLaws :
    let m := fun (i h : Nat) => (⟨List.replicate 36 1, List.replicate 36 i, List.replicate 36 i, List.replicate 36 900, [], [], [],
      [1], [(h, 7)]⟩ : PowerMeas)
    let s := w F.FE_PSTAT.STATE [0] 1 s0
    let x := fun (i : Nat) => max (listGet 0 (m i 0).i2 34 - s.ilim 34) (listGet 0 (m i 0).i20 34 - s.iwear 34)
    let y := fun (s : State) => sumList (((List.range 16).filter s.exists_).map fun p => 20000 * s.attributed (m 5000 0) p 34 *
      (200000 * s.partEnergy (m 5000 0) p - s.held100 (m 5000 0) p) * 256 /
        (200000 * s.partEnergy (m 5000 0) p * (256 - s.fld F.PWR_PBUB.D [p]) * 900))
    s.coreOn = true ∧ s.exists_ 0 = true ∧ s.exists_ 1 = false ∧ x 5000 ≠ 0 ∧ x 0 = 0 ∧ y s ≠ 0 ∧
      64 ≤ (listGet (0, 0) (m 0 64).held 0).1 ∧ ¬64 ≤ (listGet (0, 0) (m 0 63).held 0).1 ∧ s.pow.droop = false ∧
      s.clampedPart (m 0 0) 0 = false ∧ ({ s with pow := { s.pow with clamped := [34] } } : State).clampedPart (m 0 0) 0 = true := by
  decide +kernel

theorem test_meets_TheCapLawStandsWithinTheCap :
    let p : CapIn := ⟨5, 0, 0, 1⟩
    sumInt ([p].map (·.u (capDen [p]))) + ((0 * capDen [p] : Nat) : Int) ≤ ((100 * capDen [p] : Nat) : Int) := by decide +kernel

theorem test_meets_SensorsThrottleClampTripAndDroop :
    let t := w F.PWR_TSTAT.TRIP [] 1 s0
    let c : State := { s0 with pow := { s0.pow with clamped := [35] } }
    let l := w F.DBG_CTL.SATEST [] 1 s0
    let v : Nat := 2 ^ 56
    s0.inReset = false ∧ (List.replicate 64 (-2048 : Int)).length = 64 ∧ t.bit F.PWR_TSTAT.TRIP [] = true ∧ t.inReset = false ∧
      s0.bit F.PWR_TSTAT.TRIP [] = false ∧ s0.coreOn = true ∧ 35 ∉ s0.pow.clamped ∧ 35 ∈ c.pow.clamped ∧
      0 < s0.fld F.PWR_DIDT.DDTHR [] ∧ s0.fld F.PWR_DIDT.DIEN [] = 1 ∧ (w F.PWR_DIDT.DIEN [] 0 s0).fld F.PWR_DIDT.DIEN [] = 0 ∧
      (s0.rightsOf .tap).debug = true ∧ bits v 56 4 = 1 ∧ (w F.DBG_LOOP.BUSY [] 1 s0).fld F.DBG_LOOP.BUSY [] = 1 ∧
      s0.fld F.DBG_LOOP.BUSY [] = 0 ∧ s0.fld F.DBG_CTL.SATEST [] = 0 ∧
      ¬(l.fld F.DBG_CTL.SATEST [] = 0 ∨ (∃ k < 8, l.fld F.LND_CTL.EN [k] = 1 ∧ l.lstate k ≠ 4) ∨ l.bring.status = 1) ∧
      bitAt (2 ^ 63) 63 = true ∧ (w F.DBG_CAP.ARM [] 1 s0).fld F.DBG_CAP.ARM [] = 1 ∧ s0.fld F.DBG_CAP.ARM [] = 0 := by decide +kernel

/-- Landing 0 in FIXED, with frames, bound to partition 0 by gateway 1 of cluster 0, which sends in its slot 0. -/
def sSlot : State :=
  (w F.LND_FLCFG.VAL [0, 0] 1 (w F.CHN_GWCFG.MODE [0, 1] 2 (w F.CLK_CCLK.CUR [] 2000000 (w F.LND_STAT.STATE [0] 3
    (w F.LND_MOD.MST [0, 0] 2 (w F.LND_MOD.MST [0, 1] 2 sRun))))))

/-- A frame with VP `v` in position 0. -/
def slotFrame (v : Nat) : Frame := ⟨[List.replicate 64 0], BitVec.ofNat 80 (v * 2 ^ 48), BitVec.ofNat 16 ([0, 41625, 14661, 20465][v]?.getD 0)⟩

theorem slotFrame_bytes : (∀ v ∈ [1, 2], sSlot.frameBytes 0 (slotFrame v) =
    List.replicate 64 0 ++ (List.replicate 64 0 ++ leBytes 10 (v * 2 ^ 48))) := by decide +kernel

/-- The check of such a frame, by its halves. -/
theorem slotFrame_check (v : Nat) (hv : v ∈ [1, 2])
    (h : (List.replicate 64 0 ++ leBytes 10 (v * 2 ^ 48)).foldl (crcByteM 16 0x1021) 55002 = (slotFrame v).fchk.toNat) :
    crc16 (sSlot.frameBytes 0 (slotFrame v)) = (slotFrame v).fchk.toNat := by
  have h0 : (List.replicate 64 0).foldl (crcByteM 16 0x1021) 0xFFFF = 55002 := by decide +kernel
  rw [slotFrame_bytes v hv, crc16, List.foldl_append, h0, h]

theorem test_more_FramesHaveTheirCheck1 : crc16 (sSlot.frameBytes 0 (slotFrame 1)) = (slotFrame 1).fchk.toNat :=
  slotFrame_check 1 (by decide) (by decide +kernel)
theorem test_more_FramesHaveTheirCheck2 : crc16 (sSlot.frameBytes 0 (slotFrame 2)) = (slotFrame 2).fchk.toNat :=
  slotFrame_check 2 (by decide) (by decide +kernel)

theorem test_more_FramesBringSlotWordsAndUnits :
    let f := slotFrame
    (∀ v ∈ [1, 2, 3], sSlot.lstate 0 = 3 ∧ 0 < sSlot.framePos 0 (f v) ∧
        bits (f v).trailer.toNat 0 48 = 0 ∧ (∀ j < sSlot.framePos 0 (f v), frameVp (f v) j = if j = 0 then v else 0)) ∧
      (sSlot.slotGate 0 0 = some (0, 1) ∧ sSlot.voyaging (sSlot.partOf 0) = true) ∧
      (dueOf (sSlot.part (sSlot.partOf 0)).scyc (bits (f 2).trailer.toNat 72 8) < (sSlot.part (sSlot.partOf 0)).scyc + 48 ∧
        ((sSlot.lnd 0).slip.filter (fun w => w.slot == 0)).length < 48) := by decide +kernel

theorem test_more_LandingsTrainAndReceiveFrames :
    let fx := sLand 3 2 id
    let b := capBlock (fun b => overwrite b 2 [0])
    (s0.slotGate 0 0 = none ∧ s0.lstate 0 ≠ 1 ∧ s0.lstate 0 < 2 ∧ s0.torec 0 = false) ∧
      (sUp.lstate 0 ≠ 1 ∧ sUp.torec 0 = true ∧
        crc32 (slice (slice (capBlock id) 0 32) 0 28) = leAt (slice (capBlock id) 0 32) 28 4) ∧
      (crc32 (slice b 0 28) = leAt b 28 4 ∧ bitAt (leAt b 2 1) 0 = false) ∧
      ((fx.lnd 0).chg = none ∧ (fx.lnd 0).wait = [] ∧ (fx.lnd 0).partner = [] ∧ (fx.lnd 0).redFail = [] ∧
        carries (fx.mst 0 1) = true ∧ SMap.get 0 (fx.lnd 0).perr (128 + 67) + 0 < max 1 (fx.fld F.LND_THR.LTHR [0])) := by
  decide +kernel

theorem test_more_ModuleChangesAreAskedAgreedAndEnded :
    let c : Change := ⟨true, true, 1, 1, 0, 0, 0, 2, false, false, false⟩
    let s := fun (c : Change) => sLand 2 2 (fun k => { k with chg := some c })
    let few := w F.LND_FLCFG.VAL [0, 0] 1 (sLand 2 2 id)
    let far := w F.ID_STRAP.POS [] 9 (s c)
    let none_ := sLand 2 6 id
    (few.tooFew 0 1 = true ∧ (4 : Fin 6).val ≥ 4 ∧ (s c).tooFew 0 1 = false) ∧
      (((s { c with own := false }).lnd 0).chg = some { c with own := false } ∧ (s c).pos < (1 : BitVec 6).toNat ∧
        (8 : BitVec 6).toNat < far.pos ∧ (far.lnd 0).chg = some c) ∧
      ((sLand 2 2 id).lnd 0).chg = none ∧ isFw .i3c = false ∧ s0.lstate 0 ≠ 2 ∧ s0.lstate 0 ≠ 3 ∧
      (none_.mst 0 1 = 6 ∧ carries (none_.mst 0 1) = false ∧ (none_.lnd 0).retr.find? (fun c => c.m == 1) = none) ∧
      (s0.mst 0 1 ≠ 1 ∧ s0.mst 0 1 ≠ 6 ∧ carries (s0.mst 0 1) = false) ∧
      (s0.lnd 0).partner.find? (fun x => x / 8 == 1) = none := by decide +kernel

theorem test_more_DebugTestsAreTurnedAway :
    ((noRights s0).rightsOf .i3c).debug = false ∧ s0.fld F.DBG_LOOP.BUSY [] = 0 ∧ s0.pow.clamped = [] ∧
      (s0.fld F.PWR_TSTAT.TLVL [] < min 15 (sext 12 ((w F.PWR_TSTAT.TJ [] 2047 s0).fld F.PWR_TSTAT.TJ []) / 16 -
        (s0.fld F.PWR_THCFG.TTHR [] : Int) + 1).toNat) ∧
      (1000 ≤ SMap.get 0 ({ s0 with pow := { s0.pow with cool := [(0, 1000)] } } : State).pow.cool 0) ∧
      (s0.fld F.PWR_DIDT.DDTHR [] ≤ s0.fld F.PWR_DIDT.DDTHR []) := by decide +kernel

/-- A public key and an image of no bytes that it signs (R488), made with an implementation of the standards outside Lean. -/
def fwKey : Bytes :=
  beBytes 48 0xeecf256b61194b8f84a8f916e90c09c14749fd8ffc5809d25df75ed8f38e89c1d6fe945a82fb34bd2434a538c229759a ++
    beBytes 48 0xea3a7dafb11d03a0cb6c3bdc454a9b3ec766a4de7b42f7e4ed84bc2e314421133f3a59ec42c1d978a97542e4b1d3aa03
def fwImg : Bytes :=
  asciiBytes "AKFW" ++ [1, 0, 0, 0, 0, 0, 0, 0, 1, 0, 0, 0] ++ List.replicate 32 0 ++ sha384 [] ++
    beBytes 48 0x11de24a2c251c777573cac5ea025e467f208e51dbff98fc54f6661cbe56583b037882f4a1ca297e60abcdbc3836d84bc ++
    beBytes 48 0x78241dccc8b873442d3f9ad1567c7aee9c586d29612676528df6b847da99f91dedd2a10013bd814e492883ae391b47f2 ++
    fwKey ++ List.replicate 224 0

/-- Firmware runs from slot A; slot B holds the image, and the key is accepted. -/
def sImg : State := { sMp with
  fuses := { sMp.fuses with keys := [sha384 fwKey] }
  mp := { sMp.mp with slotB := fwImg } }

/-- R489: the signature verifies; the SHA-384 of the empty string is that of FIPS 180-4. -/
theorem test_image_verifies : sImg.fwCheck (sImg.slotImg 1) = none ∧ sImg.fwCheck (sImg.slotImg 0) = some 3 := by decide +kernel
theorem test_image_of_another_key_fails : sMp.fwCheck fwImg = some 1 := by decide +kernel
theorem test_sha384_of_nothing : beNat (sha384 []) =
    0x38b060a751ac96384cd9327eb1b1e36a21fdb71114be07434c0cc7bf63f6e1da274edebfe76f65fbd51ad2f14898b95b := by decide +kernel

theorem test_meets_BringUpStepsDoTheirWorkAndEnd :
    let st := fun (k : Nat) => { s0 with bring := { s0.bring with step := k, status := 1 } }
    let x : Straps := ⟨0, false, false⟩
    let bad := { st 5 with od := [(0x1102 * 256 + 1, [])] }
    let lock := w F.CLK_REF.LOCK [] 1 s0
    let hold := w F.CLK_REF.HOLD [] 1 s0
    (∀ k ∈ [1, 2, 3, 4, 5, 6, 7, 8, 9, 10, 11], (st k).coreOn = true ∧ (st k).stepping k = true ∧ (st k).bring.work = none) ∧
      s0.stepping 1 = false ∧ (st 2).fwCheck ((st 2).slotImg ((st 2).odNat 0x7002 2 0)) = some 3 ∧
      ((∀ y ∈ [x].take 4, y = x) ∧ x.pos = s0.pads.straps.pos ∧ ∃ y ∈ [x, { x with pos := 1 }].take 4, y.pos ≠ s0.pads.straps.pos) ∧
      (SMap.find bad.od (0x1102 * 256 + 1) = some [] ∧ bad.mapCheck [] = some 1 ∧ SMap.find s0.od (0x1102 * 256 + 1) = none) ∧
      2 ≤ ({ st 10 with bring := { (st 10).bring with agree := 2 } } : State).bring.agree ∧ (st 10).bring.agree < 2 ∧
      ((st 1).bring.status = 1 ∧ (st 1).stepResult = none ∧
        ({ st 1 with bring := { (st 1).bring with work := some 2 } } : State).stepResult = some 2) ∧
      s0.fld F.CLK_REF.LOCK [] = 0 ∧ lock.fld F.CLK_REF.LOCK [] = 1 ∧ hold.fld F.CLK_REF.HOLD [] = 1 ∧
      hold.fld F.CLK_REF.LOCK [] = 0 := by decide +kernel

theorem test_meets_BringUpFirmwareStep :
    let s := { sImg with
      bring := { s0.bring with step := 2, status := 1 }
      od := [(0x7002 * 256 + 2, [1])] }
    s.coreOn = true ∧ s.stepping 2 = true ∧ s.fwCheck (s.slotImg (s.odNat 0x7002 2 0)) = none := by decide +kernel

theorem test_meets_FirmwareUpdatesLogsAndSensorsWork :
    let sw := fun (st tst : Nat) => { w F.MGT_STAT.MPST [] st (w F.TDE_TSTAT.STATE [] tst sImg) with mp := { sImg.mp with swap := some 1 } }
    let n : State := { sMp with mp := { sMp.mp with nonce := some (List.replicate 48 7) } }
    let sh := w F.MGT_STAT.SHED [] 1 sMp
    (sImg.inReset = false ∧ sImg.reaches .fw = true ∧ sImg.mpst = 1 ∧ sImg.fld F.MGT_STAT.SHED [] = 0 ∧ sImg.mp.mbox.length < 64 ∧
        sImg.holds .fw 5 0 = true ∧ sImg.fld F.MGT_STAT.SLOT [] = 0 ∧ sImg.holds .fw 2 0 = true ∧ sImg.odNat 0x6000 6 0 = 0) ∧
      (n.mp.nonce = some (List.replicate 48 7) ∧ n.inReset = false) ∧
      ((sw 1 3).mp.swap = some 1 ∧ (sw 1 3).mpst = 1 ∧ (sw 1 3).tst = 3 ∧ (sw 1 3).swapFree = true ∧ (sw 2 3).mpst = 2 ∧
        (sw 2 3).mp.mbox = []) ∧
      (sh.fld F.MGT_STAT.SHED [] = 1 ∧ sh.mp.cool < 9 ∧ ({ sh.mp with cool := 9 } : Mp).cool = 9) ∧
      sMp.mpst ≠ 4 := by decide +kernel

/-- A range of the physical map that a CXL landing serves, and one record to copy. -/
def sLog : State :=
  { w F.LND_STAT.STATE [0] 2 (w F.LND_STAT.PROTO [0] 1 (w F.CHT_PMAP.VAL [0] 1 (w F.CHT_PMAP.PROTO [0] 1
      (w F.CHT_PMAP.LIMIT [0] 1 sMp)))) with
    mp := { sMp.mp with rlNew := 1 }
    ringLog := [⟨0, 0, 0, 0, 0, 0, 0, 0⟩] }

/-- Where an address of the first GiB goes. -/
theorem target_of_lt (s : State) (a : Nat) (h : a < 2 ^ 30) : s.target a = s.target 0 := by
  unfold State.target State.pmapOf
  simp only [Nat.div_eq_of_lt h, Nat.zero_div]

theorem test_meets_TheLogIsCopied : (sLog.coreOn = true ∧ sLog.mpst = 1 ∧ 0 < sLog.mp.rlNew ∧ sLog.mp.rlNew ≤ sLog.ringLog.length ∧
    sLog.mp.plN = 0) ∧ ∀ a < 64 + 32 * sLog.logRecs, ∃ l, sLog.target (sLog.odNat 0x6000 1 0 + a) = some (l, 1) ∧ sLog.cxlUp l = true := by
  have hb : sLog.odNat 0x6000 1 0 + (64 + 32 * sLog.logRecs) ≤ 2 ^ 30 := by decide +kernel
  have ht : sLog.target 0 = some (0, 1) := by decide +kernel
  refine ⟨by decide +kernel, fun a ha => ⟨0, ?_, by decide +kernel⟩⟩
  rw [target_of_lt _ _ (Nat.lt_of_lt_of_le (Nat.add_lt_add_left ha _) hb), ht]

theorem test_meets_RecoveryContainsRestoresAndEnds :
    let rec_ := fun (st : Nat) => w F.FLT_PREC.STATE [0] st (w F.FLT_PREC.KIND [0] 1 sRun)
    let idle := w F.CLU_STSTAT.INP [1249] 1 s0
    let far := w F.LND_FLCFG.VAL [0, 0] 1 (w F.LND_FLCFG.MPOS [0, 0] (2 ^ 6) ((rec_ 3).modPart 0 (fun q => { q with joinsSent := 1 })))
    (sRun.coreOn = true ∧ sRun.bit F.FLT_CTL.EN [] = true ∧ sRun.reportPart (.router 0) = 0 ∧ (sRun.part 0).live = true ∧
        sRun.fld F.FLT_PREC.STATE [0] = 0 ∧ (∀ d ∈ (sRun.part 0).cls, d < 1250 ∧ (sRun.clu d).pend = [] ∧ (sRun.clu d).snap = none) ∧
        sRun.inPart 0 = true ∧ reportCluster (.router 0) = some 0 ∧ sRun.reportPart (.tally 0) = 0) ∧
      (idle.inPart 1249 = true ∧ (idle.part (idle.partOf 1249)).live = false) ∧
      ((rec_ 2).fld F.FLT_PREC.STATE [0] = 2 ∧ (rec_ 2).fld F.FLT_PREC.KIND [0] ≠ 0 ∧ ((rec_ 2).part 0).rems = [] ∧
        (w F.CLU_STSTAT.RST [0] 1 (rec_ 2)).bit F.CLU_STSTAT.RST [0] = true) ∧
      (isFw .fw = true ∧ ((rec_ 3).front 0).loading = [] ∧ (rec_ 3).fld F.FLT_PREC.STATE [0] = 3 ∧
        (rec_ 3).fld F.FLT_PREC.NREP [0] < max 1 ((rec_ 3).fld F.FLT_CTL.RLIM []) ∧ (rec_ 3).members 0 = [] ∧
        max 1 ((rec_ 3).fld F.FLT_CTL.RLIM []) ≤ (w F.FLT_PREC.NREP [0] 3 (rec_ 3)).fld F.FLT_PREC.NREP [0] ∧
        (rec_ 2).fld F.FLT_PREC.STATE [0] ≠ 3 ∧ (rec_ 3).spareSite 0 = some 64 ∧
        (w F.CLU_CSITE.NSPARE [0] 0 (rec_ 3)).spareSite 0 = none ∧ 1 ∉ ((rec_ 3).part 0).cls) ∧
      (((rec_ 3).modPart 0 (fun q => { q with rems := [.fence 0] })).selfRemedied 0 = false ∧ (rec_ 3).selfRemedied 0 = true ∧
        ((rec_ 3).part 0).rems.all (· == .none) = true ∧
        ∀ x ∈ (rec_ 3).tnet, x.1 < 16384) ∧
      (far.fld F.FLT_PREC.STATE [0] ≠ 0 ∧ far.members 0 ≠ [] ∧ far.joinMet 0 = false ∧ (far.part 0).live = true) := by decide +kernel

/-- The clauses of the log copy whose writes are out, of requests that are turned away, and of a swap that cannot begin. -/
theorem test_more_FirmwareUpdatesLogsAndSensorsWork :
    let out : State := { sLog with mp := { sLog.mp with plN := 1, plOut := [7] } }
    let sw : State := { w F.MGT_STAT.MPST [] 2 s0 with mp := { sMp.mp with swap := some 1 } }
    let r := w F.MGT_STAT.MPST [] 3 s0
    (out.cxlUp 0 = true ∧ out.mp.plOut = [(7 : BitVec 16).toNat] ∧ out.tagged 7 true = none ∧ 7 ∉ out.evOut ∧ out.tagged 7 false = none ∧
        out.mp.plN ≠ 0) ∧
      (sMp.reaches .i3c = true ∧ (noRights sMp).holds .i3c 5 0 = false ∧ s0.reaches (.torec 0 0 0 0) = false) ∧
      ((w F.MGT_STAT.SHED [] 1 sMp).fld F.MGT_STAT.SHED [] = 1 ∧ 2 ≤ sw.mpst ∧ s0.mpst = 0 ∧ Requester.fw ≠ .i3c ∧ s0.reaches .fw = true) ∧
      (196608 < (List.replicate 196609 (0 : Byte)).length) ∧ (sMp.mp.swap = none ∧ sMp.mp.nonce = none ∧ sMp.tst ≠ 3) ∧
      ((2 : Byte) ≠ 1 ∧ 1 < (2 : Byte).toNat) ∧ (r.mpst = 3 ∧ r.mp.mbox = []) ∧ s0.mpst ≠ 1 ∧
      (w F.MGT_STAT.MPST [] 4 s0).mpst = 4 := by
  refine ⟨by decide +kernel, by decide +kernel, by decide +kernel, ?_, by decide +kernel, by decide, by decide +kernel, by decide, by decide +kernel⟩
  rw [List.length_replicate]; decide

theorem test_more_BringUpStepsDoTheirWorkAndEnd :
    let far := w F.LND_FLCFG.VAL [0, 0] 1 (w F.LND_FLCFG.MPOS [0, 0] (2 ^ 6) (w F.CLK_REF.LOCK [] 1 sRun))
    let dead := w F.FLT_PREC.STATE [0] 3 far
    (far.fld F.CLK_REF.LOCK [] = 1 ∧ far.sailsThrough 0 = true ∧ far.voyaging 0 = true ∧ (far.part 0).recov = none ∧ far.tnet = []) ∧
      (dead.sailsThrough 0 = true ∧ dead.voyaging 0 = false) ∧ (∀ p < 16, s0.sailsThrough p = false) ∧
      (s0.fld F.CLK_REF.HOLD [] = 0 ∧ s0.stepping 1 = false) ∧
      SMap.find s0.od (0x1102 * 256 + 1) = none := by decide +kernel

theorem test_more_RecoveryContainsRestoresAndEnds :
    let rec_ := fun (st kind : Nat) => w F.FLT_PREC.STATE [0] st (w F.FLT_PREC.KIND [0] kind sRun)
    let idle := (rec_ 2 0).modPart 0 (fun q => { q with live := false })
    let load := (rec_ 3 1).modFront 0 (fun f => { f with loading := [(0, 0, 0)] })
    (((sRun.part 0).recov = none ∧ (sRun.clu 0).ecc = [] ∧ (sRun.clu 0).elw = []) ∧
        (∀ r ∈ [FaultReport.lane 0 0 .a 0, .fma 0 0 .a, .post 0 0, .table 0 0, .sailTable 0, .router 0, .link 0 0],
          sRun.reportPart r = 0 ∧ reportCluster r = some 0) ∧ reportCluster (.tally 0) = none) ∧
      ((rec_ 2 0).fld F.FLT_PREC.KIND [0] = 0 ∧ ((rec_ 2 0).part 0).live = true ∧ (rec_ 2 0).joinMet 0 = true ∧ (rec_ 2 0).members 0 = []) ∧
      (idle.part 0).live = false ∧ (load.front 0).loading ≠ [] ∧ (rec_ 3 1).overdrawnStop 0 = false ∧ isFw .i3c = false := by decide +kernel

theorem test_more_AnOverdrawnStopWaits :
    let s := w F.FLT_PREC.STATE [0] 3 (w F.FLT_PREC.KIND [0] 6 (w F.LND_STAT.OVRD [0] 1 (w F.CHN_GWCFG.MODE [0, 0] 2 sRun)))
    s.overdrawnStop 0 = true ∧ (s.front 0).loading = [] ∧ s.members 0 = [] := by decide +kernel

/-! ### Ill-formed commands are refused, one term for each check -/

/-- A Torec header of all zeros. -/
def h0 : Header := ⟨0, 0, 0, 0, 0, 0, 0, 0, false, 0, false, 0⟩

/-- The list of the meanings that carry a cluster number alone. -/
def clusterCommands (c : Nat) : List Instr :=
  [.strokeDecode c, .strokeTallyChange c, .convert c, .mxEncode c, .add c, .subtract c, .multiply c, .fma c, .compareEq c,
    .compareNe c, .compareLt c, .compareLe c, .compareGt c, .compareGe c, .compareUnord c, .minimum c, .maximum c,
    .minimumNumber c, .maximumNumber c, .divide c, .sqrt c, .exp c, .log c, .relu c, .gelu c, .silu c, .sigmoid c, .tanh c,
    .reduceSum c, .reduceMax c, .reduceMin c, .flagCapture c, .nop c, .idle c, .loop c, .setmask c, .ldwalk c, .rstwalk c,
    .ldbase c, .addbase c, .tbind c, .tidewait c, .tide c, .selfenq c, .leg c, .endStroke c, .bSliceArrival c,
    .zeroingComplete c, .scrub c, .correctedLineWriteback c]

theorem test_wf_cluster : (clusterCommands 1250).all (fun i => !WellFormed i) = true ∧
    (clusterCommands 1249).all WellFormed = true := by decide

theorem test_wf_cluster_and_row : ([.accumulate 1250 .a [], .drain 1250 .a, .accumulateAndDrain 1250 .a [], .fp32Fma 1250 .b,
    .fp64Fma 1250 .b, .slotLoad 1250 .a, .slotStore 1250 .a, .spill 1250 .a, .fill 1250 .a, .bFetch 1250 0,
    .zeroEngineClear 1250 0 [], .berthLoadComplete 1250 0, .windowOpen .fw 1250 0 0, .windowClose .fw 1250 0 0,
    .gwcrdWrite .fw 1250 0 0, .gwaddWrite .fw 1250 0 0, .lmapWrite .fw 1250 0 0, .legmaxLusWrite .fw 1250 0,
    .faultDetected (.router 1250) false] : List Instr).all (fun i => !WellFormed i) = true := by decide

theorem test_wf_register_requests : ([.rreg .fw (2 ^ 32) 8, .rreg .fw 0 (2 ^ 16), .wreg .fw (2 ^ 32) []] : List Instr).all
    (fun i => !WellFormed i) = true ∧ WellFormed (.rreg .fw (2 ^ 32 - 8) 8) = true := by decide

theorem test_wf_dictionary_requests : ([.odrd .fw 0 0 (2 ^ 32) 8 0, .odrd .fw 0 0 0 (2 ^ 16) 0, .odrd .fw 0 0 0 8 65,
    .odwr .fw 0 0 true true (2 ^ 32) [] 0, .odwr .fw 0 0 true true 0 [] 65, .oddesc .fw 0 0 65,
    .i3cPrivateWrite [] false 65] : List Instr).all (fun i => !WellFormed i) = true ∧
    WellFormed (.odwr .fw 0 0 true true 0 [1] 64) = true := by decide

theorem test_wf_mgt_block : WellFormed (.mgtFormatError .fw (List.replicate 257 0)) = false := by decide +kernel

theorem test_wf_lists_of_a_fixed_length : ([.stepStraps [], .loadWindowEnd 100 [], .telemetrySample (.thermal []),
    .telemetrySample (.rails []), .telemetrySample (.droop []), .telemetrySample (.eye []), .telemetrySample (.process []),
    .landingBufferWrite ⟨0, 0, [], 0, 0⟩, .cohData 0 false [], .rampWaveEnd [] 0, .synDigest 0 0 [], .cxlDrsMemdata 0 0 false [],
    .capabilityBlock 0 [], .trainingComplete 0 ⟨true, 1, 0, 0, 0, false, true, false, [], []⟩, .frameReceive 0 ⟨[[]], 0, 0⟩,
    .powerControlStep ⟨[], [], [], [], [], [], [], [], []⟩, .thermalSample [], .loopTestEnd [] []] : List Instr).all
    (fun i => !WellFormed i) = true := by decide

theorem test_wf_amounts : ([.stepDone (2 ^ 32), .dumpreq .fw 1 (2 ^ 64), .watchdogExpiry false (2 ^ 64), .fatalError 0 0,
    .fatalError 1 (2 ^ 64), .loadWindowEnd 101 [0, 0, 0, 0, 0], .synTally h0 0 (2 ^ 31) 0, .landingBufferWrite ⟨0, 0, List.replicate 64 0, 16, 0⟩,
    .remoteWrite ⟨0, 128, 0, [], .chain, 0, 0, 0⟩, .remoteWrite ⟨0, 0, 0, [], .chain, 0, 16, 0⟩,
    .remoteWrite ⟨1250, 0, 0, [], .chain, 0, 0, 0⟩, .trainingComplete 0 ⟨true, 1, 0, 0, 3, false, true, false, [], [0, 1, 2, 3]⟩] : List Instr).all
    (fun i => !WellFormed i) = true := by decide

theorem test_wf_payloads : ([.memBwr 0 h0 [0], .memRdr 0 h0 [0], .torecForward 0 h0 [0], .dbgTrace 0 h0 [0]] : List Instr).all
    (fun i => !WellFormed i) = true ∧ WellFormed (.memRdr 0 h0 []) = true := by decide

theorem test_wf_fetched : ([.scmdRead .fw 0 (List.replicate 65 0), .scmdWrite .fw 0 (List.replicate 65 0),
    .scmdPause .fw 0 (List.replicate 65 0), .scmdResume .fw 0 (List.replicate 65 0), .scmdFree .fw 0 (List.replicate 65 0),
    .scmdFlush .fw 0 (List.replicate 65 0)] : List Instr).all (fun i => !WellFormed i) = true := by decide

/-! ### Values from the worked examples of the spec -/

/-- The table of worked decodes under R59. -/
theorem test_worked_decodes : [(toIForm .e4m3 0xD3 0).word, (toIForm .e4m3 0x03 0).word, (toIForm .mxE2m1 0xB 127).word,
    (toIForm .bf16 0x3FC0 0).word, (toIForm .int8 0x9C 0).word, (toIForm .mxInt8 0x40 127).word, (toIForm .e4m3 0x80 0).word] =
    [0x201D80, 0x1FD180, 0x200600, 0x000600, 0x205064, 0x002040, 0x600000] := by decide

/-- A value just below the smallest normal (R67). -/
theorem test_tiny_rounds_to_normal : convertVal .fp16 .rne false (.fin false (2 ^ 11 - 1) (-25)) = (0x0400, fUF + fNX) := by decide

/-- FP32 to E4M3 (Worked conversions). -/
theorem test_fp32_to_e4m3 : [convertVal .e4m3 .rne false (decodeFmt .fp32 0x43960000), convertVal .e4m3 .rne false (decodeFmt .fp32 0x43E80000),
    convertVal .e4m3 .rne true (decodeFmt .fp32 0x43E80000), convertVal .e4m3 .rne false (decodeFmt .fp32 0x43E88000),
    convertVal .e4m3 .rne true (decodeFmt .fp32 0x43E88000), convertVal .e4m3 .rtz true (decodeFmt .fp32 0xC3E88000),
    convertVal .e4m3 .rne false (decodeFmt .fp32 0x7F800000), convertVal .e4m3 .rne true (decodeFmt .fp32 0x7F800000)] =
    [(0x79, fNX), (0x7E, fNX), (0x7E, fNX), (0x7E, fOF + fNX), (0x7F, fOF + fNX), (0xFE, fNX), (0x7E, fOF + fNX),
      (0x7F, fOF + fNX)] := by decide

/-- FP32 to BF16 at a tie, in the four directed modes. -/
theorem test_fp32_to_bf16 : ([Rnd.rne, .rtz, .rup, .rdn].map (fun r => (convertVal .bf16 r false (decodeFmt .fp32 0x3F818000),
    convertVal .bf16 r false (decodeFmt .fp32 0xBF818000)))) =
    [((0x3F82, fNX), (0xBF82, fNX)), ((0x3F81, fNX), (0xBF81, fNX)), ((0x3F82, fNX), (0xBF81, fNX)), ((0x3F81, fNX), (0xBF82, fNX))] := by
  decide

/-- FP32 to E2M1 under SR, for the two random values of the example. -/
theorem test_stochastic : convertVal .mxE2m1 (.sr 0x3A2B) false (decodeFmt .fp32 0x40133333) = (0x5, fNX) ∧
    convertVal .mxE2m1 (.sr 0x9000) false (decodeFmt .fp32 0x40133333) = (0x4, fNX) := by decide

/-- The block of the example under R73, its other sources zero. -/
theorem test_mx_block :
    let vs := ([0x41500000, 0x40400000, 0xBF400000, 0x3E000000] ++ List.replicate 28 0).map (decodeFmt .fp32)
    let r := mxEncodeBlock .mxE2m1 ⟨0, false, 0, 0, 0⟩ 0 vs
    r.1.take 4 = [0x7, 0x3, 0x9, 0x0] ∧ r.2 = (0x80, fUF + fNX) := by decide

/-- The berth and window of the example of 06_cluster_stores.md: cluster 162, berth 9, window 2. -/
def sBerth : State :=
  let b := (0x48000806000E00C8 : Nat)
  let s := w F.CLU_STSTAT.INP [162] 1 (w F.CLU_STSTAT.CGEN [162] 7 (w F.CLU_STSTAT.CPART [162] 3 s0))
  (((s.setWord .CLU_BERTH [162, 9] b).setWord .CLU_GWCFG [162, 2] 0xA0902001043F0000).setFld F.CLU_GWCRD.CRD [162, 2] 32).modPart 3
    (fun q => { q with live := true, cls := [162] })

/-- The words of the example read as its fields. -/
theorem test_berth_and_window_words : [F.CLU_BERTH.STORE, F.CLU_BERTH.BASE, F.CLU_BERTH.LEN, F.CLU_BERTH.PART, F.CLU_BERTH.GEN,
    F.CLU_BERTH.VAL, F.CLU_BERTH.RES, F.CLU_BERTH.GWO, F.CLU_BERTH.STR].map (fun f => sBerth.fld f [162, 9]) = [1, 512, 64, 3, 7, 1, 1, 1, 0] ∧
    [F.CLU_GWCFG.OPEN, F.CLU_GWCFG.CHAIN, F.CLU_GWCFG.FERRY, F.CLU_GWCFG.LAND, F.CLU_GWCFG.BERTH, F.CLU_GWCFG.OFF, F.CLU_GWCFG.LEN,
      F.CLU_GWCFG.SRCP, F.CLU_GWCFG.SRCD].map (fun f => sBerth.fld f [162, 2]) = [1, 0, 1, 0, 9, 32, 32, 0x10, 0x3F] ∧
    regAddr .CLU_BERTH [162, 9] = 0x02288090 ∧ regAddr .CLU_GWCFG [162, 2] = 0x02288840 := by decide +kernel

/-- The writes of the example by class, generation and offset. -/
def remWr (off len : Nat) (cls : WClass) (gen : BitVec 16) (src : BitVec 6) : Instr :=
  .remoteWrite ⟨162, 9, off, List.replicate len 1, cls, src, 3, gen⟩

/-- Writes 1, 2, 35, 36 and 37 of the example, each from the state before write 1. -/
theorem test_remote_writes :
    answers (remWr 2048 64 .ferry 7 0) sBerth (fun t => t.fld F.CLU_GWCRD.CRD [162, 2] == 31 && t.fld F.CLU_GWCRD.ACPT [162, 2] == 1) = true ∧
    answers (remWr 1984 64 .ferry 7 0) sBerth (fun t => t.fld F.CLU_GWCRD.CRD [162, 2] == 32 && t.fld F.CLU_GWDROPA.NOWIN [162] == 1) = true ∧
    answers (remWr 2048 64 .land 7 36) sBerth (fun t => t.fld F.CLU_GWCRD.CRD [162, 2] == 32 && t.fld F.CLU_GWDROPA.SRC [162] == 1) = true ∧
    answers (remWr 2048 64 .ferry 6 0) sBerth (fun t => t.fld F.CLU_GWDROPA.STALE [162] == 1 && t.fld F.CLU_BCNT.DROP [162, 9] == 1) = true ∧
    answers (remWr 2052 8 .ferry 7 0) sBerth (fun t => t.fld F.CLU_GWDROPB.ALIGN [162] == 1) = true := by decide +kernel

/-- The MP is idle and sheds, and the I3C target has an address. -/
def sShed : State :=
  { w F.MGT_STAT.SHED [] 1 (w F.MGT_STAT.MPST [] 1 s0) with i3c := { s0.i3c with addr := some 8 } }

/-- The first answer of the example of 15_management_and_dictionary.md: BUSY, retry after 4 ms. -/
theorem test_busy_response : answers
    (.i3cPrivateWrite ([0x02, 0, 0, 0, 0x01, 0, 0x43, 0, 0, 0, 0, 0, 0x02, 0, 0, 0] : Bytes) false 2) sShed (fun t =>
      t.i3c.resp == some [0x0A, 0x02, 0, 0, 0x01, 0, 0x43, 0, 0, 0, 0, 0, 0, 0, 0x04, 0]) = true := by decide +kernel

/-- The lane error counter of the example of 16_electrical_and_test.md. -/
theorem test_lane_error_register : regAddr .LND_LERR [3, 26] = 0x008302D0 := by decide

end Sys2Proof.Tests
end

section
/-! PROOFS. Conversion of NaNs (R69) and of zeros (R70): what the encoding of a floating-point target says of its sign,
and that a rounded value never reaches into the sign bit. -/

namespace Sys2Proof.Machine

/-! ### Encodings of the floating-point formats -/

/-- The sign bit of a floating-point format stands above its fraction and exponent fields (R47). -/
theorem Fmt.width_eq {f : Fmt} (hf : f.isInt = false) : f.width = f.mbits + f.ebits + 1 := by
  revert hf; cases f <;> decide

/-- The sign of an encoding adds to its magnitude what its sign bit is worth. -/
theorem withSign_eq {f : Fmt} (hf : f.isInt = false) (n : Bool) (enc : Nat) :
    withSign f n enc = enc + b2n n * 2 ^ (f.mbits + f.ebits) := by
  cases n <;> simp [withSign, b2n, Fmt.width_eq hf]

/-- An encoding whose magnitude keeps below the sign bit shows the sign it was given. -/
theorem bitAt_withSign {f : Fmt} (hf : f.isInt = false) (n : Bool) {enc : Nat} (h : enc < 2 ^ (f.mbits + f.ebits)) :
    bitAt (withSign f n enc) (f.mbits + f.ebits) = n := by
  rw [withSign_eq hf, bitAt, Nat.shiftRight_eq_div_pow, Nat.add_mul_div_right _ _ (Nat.two_pow_pos _), Nat.div_eq_of_lt h]
  cases n <;> rfl

/-- A finite value has the sign that its encoding shows. -/
theorem decodeFmt_fin_neg {f : Fmt} (hf : f.isInt = false) {enc m : Nat} {k : Bool} {x : Int}
    (h : decodeFmt f enc = .fin k m x) : k = bitAt enc (f.mbits + f.ebits) := by
  simp only [decodeFmt, hf, Bool.false_eq_true, if_false] at h
  split_ifs at h <;> cases h <;> rfl

/-- The encoding with both fields clear is the zero of its sign. -/
theorem decodeFmt_withSign_zero {f : Fmt} (hf : f.isInt = false) (n : Bool) :
    decodeFmt f (withSign f n 0) = .fin n 0 (f.emin - f.mbits) := by
  revert n hf; cases f <;> decide

/-- The canonical NaN (R52) reads as a quiet NaN. -/
theorem decodeFmt_nanEnc {f : Fmt} (h : f.hasNan = true) : decodeFmt f f.nanEnc = .nan false := by
  revert h; cases f <;> decide

/-- The significand and the exponent of the largest finite value: it has no more than the format's significand bits,
and its exponent field fits. -/
theorem decodeFmt_maxEnc {f : Fmt} (hf : f.isInt = false) : ∃ mm me, decodeFmt f f.maxEnc = .fin false mm me ∧
    mm < 2 ^ (f.mbits + 1) ∧ me + f.mbits + f.bias < 2 ^ f.ebits := by
  exact match f, hf with
  | .fp64, _ | .fp32, _ | .fp16, _ | .bf16, _ | .e4m3, _ | .e5m2, _ | .mxE4m3, _ | .mxE5m2, _ | .mxE3m2, _ | .mxE2m3, _
  | .mxE2m1, _ => ⟨_, _, rfl, by decide, by decide⟩

theorem maxEnc_lt {f : Fmt} (hf : f.isInt = false) : f.maxEnc < 2 ^ (f.mbits + f.ebits) := by
  revert hf; cases f <;> decide

theorem infEnc_lt (f : Fmt) : f.infEnc < 2 ^ (f.mbits + f.ebits) := by
  rw [Fmt.infEnc, Nat.add_comm, pow_add]
  exact Nat.mul_lt_mul_of_pos_right (Nat.sub_lt (Nat.two_pow_pos _) Nat.one_pos) (Nat.two_pow_pos _)

/-! ### A rounded magnitude keeps below the sign bit -/

theorem two_pow_bitLen_sub_one_le {n : Nat} (h : n ≠ 0) : 2 ^ (bitLen n - 1) ≤ n := by
  simpa [bitLen, h] using Nat.log2_self_le h

theorem lt_two_pow_bitLen (n : Nat) : n < 2 ^ bitLen n := by
  by_cases h : n = 0
  · simp [h, bitLen]
  · simpa [bitLen, h] using Nat.lt_log2_self

/-- The leading bit of `n × 2 ^ l` is no higher than the highest significand bit of a value that is not below it. -/
theorem leading_exp_le {n mm k m : Nat} {l me : Int} (hn : 2 ^ (m + k) ≤ n) (hmm : mm < 2 ^ (m + 1))
    (hle : n * 2 ^ (l - min me l).toNat ≤ mm * 2 ^ (me - min me l).toNat) : l + k ≤ me := by
  have h : 2 ^ (m + k + (l - min me l).toNat) < 2 ^ (m + 1 + (me - min me l).toNat) := calc
    2 ^ (m + k + (l - min me l).toNat) = 2 ^ (m + k) * 2 ^ (l - min me l).toNat := pow_add ..
    _ ≤ n * 2 ^ (l - min me l).toNat := Nat.mul_le_mul_right _ hn
    _ ≤ mm * 2 ^ (me - min me l).toNat := hle
    _ < 2 ^ (m + 1) * 2 ^ (me - min me l).toNat := Nat.mul_lt_mul_of_pos_right hmm (Nat.two_pow_pos _)
    _ = 2 ^ (m + 1 + (me - min me l).toNat) := (pow_add ..).symm
  have := (Nat.pow_lt_pow_iff_right Nat.one_lt_two).mp h
  omega

/-- An exponent field and a fraction that fit stay below the sign bit. -/
theorem fields_lt {ef fr m e : Nat} (he : ef < 2 ^ e) (hf : fr < 2 ^ m) : ef * 2 ^ m + fr < 2 ^ (m + e) := calc
  ef * 2 ^ m + fr < (ef + 1) * 2 ^ m := by rw [Nat.succ_mul]; omega
  _ ≤ 2 ^ e * 2 ^ m := Nat.mul_le_mul_right _ he
  _ = 2 ^ (m + e) := by rw [← pow_add, Nat.add_comm]

/-- A magnitude no larger than `mm × 2 ^ me`, whose own exponent field fits, is encoded below the sign bit. -/
theorem encodeMag_lt {f : Fmt} {n mm : Nat} {l me : Int} (hmm : mm < 2 ^ (f.mbits + 1))
    (hme : me + f.mbits + f.bias < 2 ^ f.ebits)
    (hle : n * 2 ^ (l - min me l).toNat ≤ mm * 2 ^ (me - min me l).toNat) :
    encodeMag f n l < 2 ^ (f.mbits + f.ebits) := by
  unfold encodeMag
  split
  case isTrue h => exact h.trans_le (Nat.pow_le_pow_right Nat.two_pos (Nat.le_add_right ..))
  case isFalse h =>
    have hn0 : n ≠ 0 := fun h0 => h (h0 ▸ Nat.two_pow_pos _)
    have hlen : f.mbits < bitLen n :=
      (Nat.pow_lt_pow_iff_right Nat.one_lt_two).mp ((not_lt.mp h).trans_lt (lt_two_pow_bitLen n))
    obtain ⟨sh, hsh⟩ : ∃ sh, bitLen n = f.mbits + sh + 1 := ⟨bitLen n - 1 - f.mbits, by omega⟩
    have hexp : l + sh ≤ me :=
      leading_exp_le (by simpa [hsh] using two_pow_bitLen_sub_one_le hn0) hmm hle
    have hfrac : n / 2 ^ sh < 2 ^ (f.mbits + 1) := Nat.div_lt_of_lt_mul (by
      rw [← pow_add, show sh + (f.mbits + 1) = bitLen n by omega]; exact lt_two_pow_bitLen n)
    have hm : 0 < 2 ^ f.mbits := Nat.two_pow_pos _
    have he : 0 < 2 ^ f.ebits := Nat.two_pow_pos _
    rw [show bitLen n - 1 - f.mbits = sh by omega]
    exact fields_lt (by zify at he ⊢; omega) (by rw [pow_succ] at hfrac; omega)

/-! ### What a conversion to a floating-point format can give -/

/-- An encoding of a finite or infinite value of sign `n`, or the canonical NaN of the format. -/
def SignedOrNan (f : Fmt) (n : Bool) (x : Nat) : Prop :=
  (∃ enc < 2 ^ (f.mbits + f.ebits), x = withSign f n enc) ∨ f.hasNan = true ∧ x = f.nanEnc

/-- A finite value read back from such an encoding has the sign `n`. -/
theorem SignedOrNan.fin_neg {f : Fmt} (hf : f.isInt = false) {n : Bool} {x : Nat} (h : SignedOrNan f n x) {k : Bool}
    {m : Nat} {e : Int} (hd : decodeFmt f x = .fin k m e) : k = n := by
  obtain ⟨enc, henc, rfl⟩ | ⟨hnan, rfl⟩ := h
  · rw [decodeFmt_fin_neg hf hd, bitAt_withSign hf n henc]
  · rw [decodeFmt_nanEnc hnan] at hd; cases hd

theorem signedOrNan_overflowEnc {f : Fmt} (hf : f.isInt = false) (r : Rnd) (om n : Bool) :
    SignedOrNan f n (overflowEnc f r om n) := by
  have hmax : SignedOrNan f n (withSign f n f.maxEnc) := .inl ⟨_, maxEnc_lt hf, rfl⟩
  have hinf : SignedOrNan f n (withSign f n f.infEnc) := .inl ⟨_, infEnc_lt f, rfl⟩
  have hnan (h : f = .e4m3) : SignedOrNan f n f.nanEnc := .inr ⟨h ▸ rfl, rfl⟩
  simp only [overflowEnc, Bool.and_eq_true, decide_eq_true_eq]
  split_ifs with _ _ h
  · exact hmax
  · exact hinf
  · exact hmax
  · exact hnan h.1
  · exact hmax

theorem signedOrNan_roundFloat {f : Fmt} (hf : f.isInt = false) (r : Rnd) (om n : Bool) (m : Nat) (e : Int) :
    SignedOrNan f n (roundFloat f r om n m e).1 := by
  obtain ⟨mm, me, hmax, hmm, hme⟩ := decodeFmt_maxEnc hf
  simp only [roundFloat, hmax]
  split
  · exact .inl ⟨0, Nat.two_pow_pos _, rfl⟩
  split
  case isTrue => exact signedOrNan_overflowEnc hf r om n
  case isFalse hpast => exact .inl ⟨_, encodeMag_lt hmm hme (by simpa using hpast), rfl⟩

/-- A finite value goes to rounding into a floating-point target, and to the integer grid in an integer target. -/
theorem convertVal_fin_float {f : Fmt} (hf : f.isInt = false) (r : Rnd) (om n : Bool) (m : Nat) (e : Int) :
    convertVal f r om (.fin n m e) = roundFloat f r om n m e := by
  simp [convertVal, hf]

theorem convertVal_fin_int {f : Fmt} (hf : f.isInt = true) (r : Rnd) (om n : Bool) (m : Nat) (e : Int) :
    convertVal f r om (.fin n m e) = roundInt f r n m e := by
  simp [convertVal, hf]

theorem roundFloat_zero (f : Fmt) (r : Rnd) (om n : Bool) (e : Int) : roundFloat f r om n 0 e = (withSign f n 0, 0) := by
  simp [roundFloat]

theorem roundMag_zero (r : Rnd) (n : Bool) (ex l : Int) : roundMag r n 0 ex l = (0, false) := by
  simp [roundMag]

theorem roundInt_zero (f : Fmt) (r : Rnd) (n : Bool) (e : Int) : roundInt f r n 0 e = (0, 0) := by
  simp [roundInt, roundMag_zero, wrapN]

/-- Integer 0 reads as +0. -/
theorem decodeFmt_int_zero {f : Fmt} (hf : f.isInt = true) : decodeFmt f 0 = .fin false 0 0 := by
  revert hf; cases f <;> decide

theorem convertVal_nan_of_hasNan {f : Fmt} (h : f.hasNan = true) (r : Rnd) (om sig : Bool) :
    convertVal f r om (.nan sig) = (f.nanEnc, if sig then fNV else 0) := by
  have hf : f.isInt = false := by revert h; cases f <;> decide
  simp [convertVal, hf, h]

theorem convertVal_nan_of_not_hasNan {f : Fmt} (hf : f.isInt = false) (h : f.hasNan = false) (r : Rnd) (om sig : Bool) :
    convertVal f r om (.nan sig) = (0, fNV) := by
  simp [convertVal, hf, h]

/-! ### The statements -/

/-- Settles O20: a zero is encoded by its sign alone, and whatever a non-zero value rounds to keeps below the sign bit,
so that a zero read back has the sign of the source. -/
theorem zerosKeepTheirSign : Obligations.ZerosKeepTheirSign := by
  unfold Obligations.ZerosKeepTheirSign
  refine ⟨fun f r om n m e hf => ⟨⟨f.emin - f.mbits, ?_⟩, ?_, fun k x hd => ?_⟩, fun f r om n e hf => ?_,
    fun f hf => ⟨0, decodeFmt_int_zero hf⟩⟩
  · rw [convertVal_fin_float hf, roundFloat_zero, decodeFmt_withSign_zero hf]
  · rw [convertVal_fin_float hf, roundFloat_zero]
  · rw [convertVal_fin_float hf] at hd
    exact (signedOrNan_roundFloat hf r om n m e).fin_neg hf hd
  · rw [convertVal_fin_int hf, roundInt_zero]

/-- Settles O19: each target named has NaNs, or is a floating-point format without them. -/
theorem naNsConvertAsTheTargetAllows : Obligations.NaNsConvertAsTheTargetAllows := by
  unfold Obligations.NaNsConvertAsTheTargetAllows
  intro f r om sig
  have hasNan_of_mem : ∀ f ∈ [Fmt.fp64, .fp32, .fp16, .bf16, .e5m2, .e4m3, .mxE5m2, .mxE4m3], f.hasNan = true := by
    decide
  have noNan_of_mem : ∀ f ∈ [Fmt.mxE3m2, .mxE2m3, .mxE2m1], f.isInt = false ∧ f.hasNan = false := by decide
  refine ⟨fun hmem => ?_, fun hmem => ?_⟩
  · have h := hasNan_of_mem f hmem
    exact ⟨convertVal_nan_of_hasNan h r om sig, false, decodeFmt_nanEnc h, rfl⟩
  · obtain ⟨hf, h⟩ := noNan_of_mem f hmem
    exact convertVal_nan_of_not_hasNan hf h r om sig

end Sys2Proof.Machine
end

section
/-! PROOFS. The special state of a cell (R92): how two special states combine, that finite products enter the cell
beside it, and what a cell in a special state drains to. -/

namespace Sys2Proof.Machine

/-! ### The table of R92 -/

@[simp] theorem Spc.none_meet (x : Spc) : Spc.meet .none x = (x, false) := rfl

@[simp] theorem Spc.nan_meet (x : Spc) : Spc.meet .nan x = (.nan, false) := by cases x <;> rfl

theorem Spc.meet_comm (x y : Spc) : x.meet y = y.meet x := by cases x <;> cases y <;> rfl

/-! ### A finite product enters beside the special state -/

/-- Setting the special state commutes with the entry of a finite product. -/
theorem Cell.addMag_withSpc (c : Cell) (x : Spc) (s : Bool) (mag : Nat) (e : Int) :
    ({ c with spc := x } : Cell).addMag s mag e = { c.addMag s mag e with spc := x } := by
  simp only [Cell.addMag]
  split_ifs <;> rfl

/-! ### The drain of a cell in a special state -/

@[simp] theorem orF_zero (a : Nat) : orF a 0 = a := Nat.or_zero a

/-- A cell in a special state drains no sticky bit. -/
theorem Cell.stickyF_of_spc {c : Cell} (h : c.spc ≠ .none) : c.stickyF = 0 := if_neg h

/-- The value that a special state stands for at a drain; a cell without one is not asked. -/
def Spc.value : Spc → Val
  | .none => .fin false 0 0
  | .pinf => .inf false
  | .ninf => .inf true
  | .nan => .nan false

/-- A cell in a special state drains the value of that state, with the flags of its conversion alone. -/
theorem Cell.drain_of_spc {c : Cell} (h : c.spc ≠ .none) (f : Fmt) (r : Rnd) (om : Bool) :
    c.drain f r om = convertVal f r om c.spc.value := by
  simp only [Cell.drain, Cell.stickyF_of_spc h, orF_zero]
  cases hx : c.spc with
  | none => exact absurd hx h
  | pinf => rfl
  | ninf => rfl
  | nan => rfl

/-! ### The statement -/

/-- Settles O18: the table has sixteen entries; a finite product commutes with a change of the special state; and a
cell in a special state drains the value of that state. -/
theorem specialStatesCombine : Obligations.SpecialStatesCombine := by
  unfold Obligations.SpecialStatesCombine
  refine ⟨fun x => ⟨x.none_meet, x.nan_meet⟩, Spc.meet_comm, rfl, rfl, rfl, fun c x s mag e => ?_,
    fun c d f r om hc hd => ?_⟩
  · simp [Cell.addMag_withSpc]
  · rw [Cell.drain_of_spc hc, Cell.drain_of_spc (hd ▸ hc), hd]

end Sys2Proof.Machine
end

section
/-! PROOFS. The saturation of tallies (R252): what a net change leaves in VALUE, SAT and UNF. -/

namespace Sys2Proof.Machine

variable (s : State) (t : Nat)

/-! ### The word of a tally among its neighbours -/

/-- The counters of a tally and its leg amounts stand beside TDE_TAL, not in it. -/
theorem regAddr_tdeTal_ne {r : RegId} (h : r = .TDE_TCNT ∨ r = .TDE_TLEG) :
    regAddr .TDE_TAL [t] ≠ regAddr r [t] := by
  obtain rfl | rfl := h <;> simp [regAddr, regPlace]

/-! ### Raising a flag -/

/-- A field raised to 1 on a condition. -/
theorem State.fld_raise_same (c : Prop) [Decidable c] (f : Fld) (ix : List Nat) (hw : f.w = 1) (h : f.lo + f.w ≤ 64) :
    (if c then s.setFld f ix 1 else s).fld f ix = if c then 1 else s.fld f ix := by
  split
  · simp [State.fld_setFld_same _ _ _ _ h, hw]
  · rfl

/-- Another field of the same register keeps its value over the raising. -/
theorem State.fld_raise_reg (c : Prop) [Decidable c] (f g : Fld) (ix : List Nat) (hr : g.reg = f.reg)
    (h : g.lo + g.w ≤ 64) (hd : g.lo + g.w ≤ f.lo ∨ f.lo + f.w ≤ g.lo) :
    (if c then s.setFld f ix 1 else s).fld g ix = s.fld g ix := by
  split
  · exact State.fld_setFld_reg _ _ _ _ _ hr h hd
  · rfl

/-! ### The exact result and its clipping -/

/-- R252: the exact result of the net change `n` of tally `t`. -/
def State.tallyExact (n : TNet) : Int :=
  (s.fld F.TDE_TAL.VALUE [t] : Int) + n.sinc + n.einc - n.sdec - n.edec

/-- R252: the exact result `v` clipped into VALUE, with the flag of the end it lies beyond. -/
def State.clipTally (v : Int) : State :=
  let s := if 16777215 < v then s.setFld F.TDE_TAL.SAT [t] 1 else s
  let s := if v < 0 then s.setFld F.TDE_TAL.UNF [t] 1 else s
  s.setFld F.TDE_TAL.VALUE [t] (min v.toNat 16777215)

/-- The counting after the clipping (R269) changes no field of TDE_TAL. -/
theorem State.fld_applyTally_tal {g : Fld} (hg : g.reg = .TDE_TAL) (n : TNet) (h : s.fld F.TDE_TCFG.ASG [t] = 1) :
    (s.applyTally t n).fld g [t] = (s.clipTally t (s.tallyExact t n)).fld g [t] := by
  have hne {f : Fld} (hf : f.reg = .TDE_TCNT ∨ f.reg = .TDE_TLEG) : regAddr g.reg [t] ≠ regAddr f.reg [t] :=
    hg ▸ regAddr_tdeTal_ne t hf
  have hasg : s.bit F.TDE_TCFG.ASG [t] = true := by simp [State.bit, h]
  rw [State.applyTally, if_pos hasg, State.fld_setFld_ne _ _ _ _ _ _ (hne (.inr rfl)),
    State.fld_incFld_ne _ _ _ _ _ _ (hne (.inr rfl)), State.fld_incFld_ne _ _ _ _ _ _ (hne (.inl rfl)),
    State.fld_incFld_ne _ _ _ _ _ _ (hne (.inl rfl))]
  rfl

theorem State.fld_clipTally_value (v : Int) :
    (s.clipTally t v).fld F.TDE_TAL.VALUE [t] = min v.toNat 16777215 := by
  rw [State.clipTally, State.fld_setFld_same _ _ _ _ (by decide)]
  exact Nat.mod_eq_of_lt (Nat.lt_succ_of_le (Nat.min_le_right ..))

theorem State.fld_clipTally_sat (v : Int) :
    (s.clipTally t v).fld F.TDE_TAL.SAT [t] = if 16777215 < v then 1 else s.fld F.TDE_TAL.SAT [t] := by
  rw [State.clipTally, State.fld_setFld_reg _ F.TDE_TAL.VALUE F.TDE_TAL.SAT _ _ rfl (by decide) (by decide),
    State.fld_raise_reg _ _ F.TDE_TAL.UNF F.TDE_TAL.SAT _ rfl (by decide) (by decide),
    State.fld_raise_same _ _ _ _ rfl (by decide)]

theorem State.fld_clipTally_unf (v : Int) :
    (s.clipTally t v).fld F.TDE_TAL.UNF [t] = if v < 0 then 1 else s.fld F.TDE_TAL.UNF [t] := by
  rw [State.clipTally, State.fld_setFld_reg _ F.TDE_TAL.VALUE F.TDE_TAL.UNF _ _ rfl (by decide) (by decide),
    State.fld_raise_same _ _ _ _ rfl (by decide),
    State.fld_raise_reg _ _ F.TDE_TAL.SAT F.TDE_TAL.UNF _ rfl (by decide) (by decide)]

/-! ### The statement -/

/-- Settles O30: an assigned tally takes its exact result clipped, and SAT and UNF are each set exactly beyond their
end of the range. -/
theorem talliesSaturateAndNeverWrap : Obligations.TalliesSaturateAndNeverWrap := by
  unfold Obligations.TalliesSaturateAndNeverWrap
  intro s y n _ hasg v t
  have hvalue : t.fld F.TDE_TAL.VALUE [y] = min v.toNat 16777215 :=
    (s.fld_applyTally_tal y rfl n hasg).trans (s.fld_clipTally_value y v)
  have hsat : t.fld F.TDE_TAL.SAT [y] = if 16777215 < v then 1 else s.fld F.TDE_TAL.SAT [y] :=
    (s.fld_applyTally_tal y rfl n hasg).trans (s.fld_clipTally_sat y v)
  have hunf : t.fld F.TDE_TAL.UNF [y] = if v < 0 then 1 else s.fld F.TDE_TAL.UNF [y] :=
    (s.fld_applyTally_tal y rfl n hasg).trans (s.fld_clipTally_unf y v)
  rw [hvalue, hsat, hunf]
  refine ⟨fun habove => ⟨?_, if_pos habove, if_neg ?_⟩, fun hbelow => ⟨?_, if_pos hbelow, if_neg ?_⟩,
    fun hlo hhi => ⟨?_, if_neg ?_, if_neg ?_⟩, fun hzero hsinc heinc hdec => if_pos ?_⟩
  all_goals omega

end Sys2Proof.Machine
end
